-- ==== Sys2Proof/Word.lean ====
section
/-! DEFINITION. The bit vectors of the block (R6: every register is an unsigned bit vector, bit 0 least
significant) and the words its decoders read (R60). A one-bit register or a wire level is a `Bool`, `true` for 1
(electrically high). -/

namespace Sys2Proof

/-- A byte: `mbx_byte`, `hist1`, `hist2`, `tx_sr`, a cell of `rb_mem`, a table column. -/
abbrev Byte := BitVec 8

/-- The receiver's 11-bit window `rx_win`, format `PS2WIN` (R11, R62). -/
abbrev Window := BitVec 11

/-- The 9 significant bits of a lookup key (R67). -/
abbrev Key := BitVec 9

/-- The 10-bit word `(rel, esc, byte)` of format `XKEY` (R66). -/
abbrev XkeyWord := BitVec 10

/-- The 6-bit word of format `TXSLOT`, a value of `tx_count` (R77). -/
abbrev SlotWord := BitVec 6

/-- A 4-bit ring index (R24). -/
abbrev RingIndex := BitVec 4

/-- A 2-bit field of ModifierState (R15 to R18). -/
abbrev ModField := BitVec 2

/-- A value `tx_count` can hold: the naturals below 40 (R20, R81(d), D22). -/
abbrev TickCount := Fin 40

/-- A word one of the block's decoders reads: the three decode formats of R60, and a character of the event-trace
notation of R83, which is the encoding of the three events. -/
inductive CodeWord where
  | ps2win (w : Window)
  | xkey (w : XkeyWord)
  | txslot (w : SlotWord)
  | line (c : Byte)
  deriving DecidableEq, Repr

end Sys2Proof
end

