-- ==== Sys2Proof/Config.lean ====
section
/-! DEFINITION. What an implementation fixes (R5): the table `KEYMAP` and its function-key range, the modifier
codes, the legacy waveform, the split-take switch; the constraints the spec puts on each; the spec's defaults and its
test fixture; and the free values, constants without a body, of which nothing can be proved. -/

namespace Sys2Proof

/-! ### The scancode table (R26, R68 to R71) -/

/-- An entry of `KEYMAP` (R68). The spec's column `none` is the field `plain`. -/
structure KeyEntry where
  code : BitVec 11
  ctrl : Byte
  shift : Byte
  alt : Byte
  plain : Byte
  deriving DecidableEq, Repr, Inhabited

/-- `KEYMAP` with the two open parameters that say where its function-key range lies and what its sentinel is
(R5, R70). `N_KEYS` is `keymap.length`. -/
structure KeyTable where
  keymap : List KeyEntry
  fkeyBase : Nat
  fkeySentinel : Byte
  deriving DecidableEq, Repr, Inhabited

/-- The number of letter entries: indices `[0, 26)` (R5, R54). -/
abbrev nLetters : Nat := 26

/-- The number of function-key entries: indices `[FKEY_BASE, FKEY_BASE + 10)` (R5, R54). -/
abbrev nFkeys : Nat := 10

/-- The escape prefix 0xE0 (R5). -/
abbrev pfxEscape : Byte := 0xE0#8

/-- The release prefix 0xF0 (R5). -/
abbrev pfxRelease : Byte := 0xF0#8

/-! ### The modifier codes (R72) -/

/-- The seven modifier codes, parameters with the defaults of R72. -/
structure ModCodes where
  lshift : Key
  rshift : Key
  lctrl : Key
  rctrl : Key
  lalt : Key
  ralt : Key
  caps : Key
  deriving DecidableEq, Repr, Inhabited

/-- The codes in the order R73 lists them. -/
def ModCodes.toList (m : ModCodes) : List Key :=
  [m.lshift, m.rshift, m.lctrl, m.rctrl, m.lalt, m.ralt, m.caps]

/-- R72: "The seven values are pairwise distinct." -/
def ModCodes.distinct (m : ModCodes) : Bool := decide m.toList.Nodup

/-- The admissible codes: `MOD_LSHIFT` and `MOD_LCTRL` have the values R5 gives them, the other five are parameters (R72),
and the seven are distinct. -/
def ModCodes.wf (m : ModCodes) : Bool :=
  decide (m.lshift = 0x012#9) && decide (m.lctrl = 0x014#9) && m.distinct

/-- The defaults of R72. `MOD_LSHIFT` and `MOD_LCTRL` are the source's.
PRESUMED (log 4): the other five are the spec's general-knowledge defaults (D6). -/
def ModCodes.default : ModCodes where
  lshift := 0x012#9
  rshift := 0x059#9
  lctrl := 0x014#9
  rctrl := 0x114#9
  lalt := 0x011#9
  ralt := 0x111#9
  caps := 0x058#9

/-! ### The legacy waveform (R162, R163) -/

/-- What a slot does to one legacy line (R150, APPLY). -/
inductive LineAct where
  | hold
  | low
  | high
  | bit
  deriving DecidableEq, Repr, Inhabited

/-- The pair `(clk_act, data_act)` of one slot (R162). -/
structure TandySlot where
  clk : LineAct
  data : LineAct
  deriving DecidableEq, Repr, Inhabited

/-- `TANDY_WAVE`: one pair for each value of `tx_count` (R162). That an action depends on nothing but the slot and
the current bit is constraint W1 of R163. -/
abbrev TandyWave := Vector TandySlot 40

/-- The four actions of a data bit-time of the default table (R162). -/
def defaultDataGroup : List TandySlot := [⟨.hold, .bit⟩, ⟨.low, .hold⟩, ⟨.high, .hold⟩, ⟨.hold, .low⟩]

/-- The default `TANDY_WAVE` of R162. The table is the spec's own choice (D14), log 4. -/
def TandyWave.default : TandyWave :=
  ⟨⟨[⟨.hold, .low⟩, ⟨.hold, .hold⟩, ⟨.hold, .hold⟩, ⟨.hold, .hold⟩]
    ++ (List.replicate 8 defaultDataGroup).flatten
    ++ [⟨.hold, .low⟩, ⟨.low, .hold⟩, ⟨.hold, .high⟩, ⟨.high, .hold⟩]⟩, rfl⟩

/-- The level a line has after an action: HOLD, LOW, HIGH or BIT (R150, APPLY). -/
def LineAct.level (a : LineAct) (bit old : Bool) : Bool :=
  match a with
  | .hold => old
  | .low => false
  | .high => true
  | .bit => bit

/-- The levels of one line after each action of a list, from a level before the first. -/
def lineLevels (acts : List LineAct) (bit old : Bool) : List Bool :=
  match acts with
  | [] => []
  | a :: rest => a.level bit old :: lineLevels rest bit (a.level bit old)

/-- The number of changes from `a` to `b` along a list of levels. -/
def levelEdges (a b : Bool) : List Bool → Nat
  | x :: y :: rest => (if x = a ∧ y = b then 1 else 0) + levelEdges a b (y :: rest)
  | _ => 0

/-- The clock goes through exactly one low/high cycle: one fall, one rise, back at the level it began at. -/
def oneCycle (levels : List Bool) : Bool :=
  decide (levelEdges true false levels = 1) && decide (levelEdges false true levels = 1)
    && decide (levels.head? = levels.getLast?)

/-- The slots of a wave from `a` on, `n` of them. -/
def TandyWave.slots (w : TandyWave) (a n : Nat) : List TandySlot := (w.toList.drop a).take n

/-- Whether the data line stands at the bit value on a clock edge of a data group, a rise or a fall as `rise` says: `clk`
and `data` list the levels before the group and after each of its four slots, and the data must be at the value on both
sides of the edge. -/
def bitOnEdge (rise bit : Bool) (clk data : List Bool) : Bool :=
  match clk, data with
  | c :: c' :: cs, d :: d' :: ds =>
    (decide (c ≠ c') && decide (c' = rise) && decide (d = bit) && decide (d' = bit))
      || bitOnEdge rise bit (c' :: cs) (d' :: ds)
  | _, _ => false

/-- The levels of both lines before a run of slots and after each of them, from the levels `clk`, `data`. -/
def runLevels (ss : List TandySlot) (bit clk data : Bool) : List Bool × List Bool :=
  (clk :: lineLevels (ss.map (·.clk)) bit clk, data :: lineLevels (ss.map (·.data)) bit data)

/-- W3 for one data group, started from the levels `clk`, `data`: exactly one clock cycle; one of its two edges on which
the data line is at the bit value, for either bit; and the data line not at the bit value for the whole group (a proper
part). DEDUCED (log 18): which edge the receiving device samples on is open (N5), so one of the two is asked for. -/
def dataGroupOk (g : List TandySlot) (clk data : Bool) : Bool :=
  [false, true].all (fun bit => oneCycle (runLevels g bit clk data).1)
  && [false, true].any (fun rise => [false, true].all (fun bit =>
      bitOnEdge rise bit (runLevels g bit clk data).1 (runLevels g bit clk data).2))
  && [false, true].any (fun bit => (lineLevels (g.map (·.data)) bit data).any (fun d => d != bit))

/-- W4: the data line is low after one of the slots 36 to 39 and high after a later one, and the clock makes one more cycle.
The level that slot 35 leaves counts for neither: the low must be a slot's own level here. DEDUCED (log 18). -/
def stopGroupOk (g : List TandySlot) (clk data : Bool) : Bool :=
  oneCycle (runLevels g false clk data).1
    && ((lineLevels (g.map (·.data)) false data).dropWhile (fun d => d)).any (fun d => d)

/-- The level pair both lines stand at after a run of slots. -/
def endLevels (ss : List TandySlot) (bit : Bool) (clk data : Bool) : Bool × Bool :=
  ((runLevels ss bit clk data).1.getLast?.getD clk, (runLevels ss bit clk data).2.getLast?.getD data)

/-- The constraints W2 to W6 of R163 on an admissible `TANDY_WAVE` (W1 is its type). `true, true` are the idle and
reset levels of R22. DEDUCED (log 18). -/
def TandyWave.admissible (w : TandyWave) : Bool :=
  let start := w.slots 0 4
  let group := w.slots 4 4
  let stop := w.slots 36 4
  -- W2: the eight data groups have the same four actions
  (List.range 8).all (fun k => decide (w.slots (4 * (k + 1)) 4 = group))
  -- slot 0 is applied with no bit (R150), so no action of it is BIT
  && start.head?.all (fun a => decide (a.clk ≠ .bit) && decide (a.data ≠ .bit))
  -- W6: slot 0 leaves levels other than the idle ones
  && decide (endLevels (w.slots 0 1) false true true ≠ (true, true))
  && [false, true].all (fun b =>
      -- W3, from the levels the start bit-time leaves and from those a data group leaves
      let s := endLevels start b true true
      let d := endLevels group b s.1 s.2
      dataGroupOk group s.1 s.2 && dataGroupOk group d.1 d.2
      -- W4 and W5: the stop bit-time, and the idle levels after it
      && stopGroupOk stop d.1 d.2 && decide (endLevels stop b d.1 d.2 = (true, true)))

/-! ### Well-formed tables (R69 to R71) -/

/-- The well-formedness of a table beside given modifier codes: R70 (range and sentinel), R71 (pinned entries and
conditions (a) to (d)); R69's order inside the letter range has no checkable content. -/
def KeyTable.wf (t : KeyTable) (m : ModCodes) : Bool :=
  decide (nLetters ≤ t.fkeyBase) && decide (t.fkeyBase + nFkeys ≤ t.keymap.length)
    && ((t.keymap.drop t.fkeyBase).take nFkeys).all (fun e => decide (e.alt = t.fkeySentinel))
    && t.keymap.all (fun e => decide (e.code.toNat < 0x200))
    && decide (t.keymap.map (·.code)).Nodup
    && t.keymap.all (fun e => m.toList.all (fun k => decide (e.code ≠ k.setWidth 11)))
    && t.keymap.all (fun e => decide (e.code.setWidth 8 ≠ pfxEscape) && decide (e.code.setWidth 8 ≠ pfxRelease))
    && t.keymap.head?.any (fun e => decide (e.code = 0x01C#11) && decide (e.plain = 0x61#8) && decide (e.shift = 0x41#8))
    && (t.keymap.drop 2).head?.any (fun e => decide (e.code = 0x021#11) && decide (e.ctrl = 0x03#8))

/-! ### The parameters as one record -/

/-- Every parameter the step reads (R5, R29). It is a field of the state that no operation writes (log 3). -/
structure Params where
  table : KeyTable
  mods : ModCodes
  wave : TandyWave
  /-- `MBX_SPLIT_TAKE` (R219): whether the mailbox take is two steps. -/
  mbxSplitTake : Bool
  deriving DecidableEq, Repr

/-- The parameters are admissible: R5, R70, R71, R72, R163. -/
def Params.wf (p : Params) : Bool := p.mods.wf && p.wave.admissible && p.table.wf p.mods

/-! ### The fixture `KEYMAP_T` (`95_test_vectors.md` section 2) -/

/-- The scancodes of the letters A to Z in the fixture (G7). -/
def fixtureLetterCodes : List (BitVec 11) :=
  [0x01C, 0x032, 0x021, 0x023, 0x024, 0x02B, 0x034, 0x033, 0x043, 0x03B, 0x042, 0x04B, 0x03A]
  ++ [0x031, 0x044, 0x04D, 0x015, 0x02D, 0x01B, 0x02C, 0x03C, 0x02A, 0x01D, 0x022, 0x035, 0x01A]

/-- The letter entries of the fixture: `none` lower case, `shift` upper case, `ctrl` upper & 0x1F, `alt` upper | 0x80. -/
def fixtureLetters : List KeyEntry :=
  fixtureLetterCodes.zipIdx.map (fun (c, i) =>
    let upper := BitVec.ofNat 8 (0x41 + i)
    ⟨c, upper &&& 0x1F#8, upper, upper ||| 0x80#8, upper + 0x20#8⟩)

/-- The function-key entries of the fixture in the order F10, F1, .., F9 (R70). -/
def fixtureFkeys : List KeyEntry :=
  ([0x009, 0x005, 0x006, 0x004, 0x00C, 0x003, 0x00B, 0x083, 0x00A, 0x001] : List (BitVec 11)).zipIdx.map (fun (c, d) =>
    ⟨c, BitVec.ofNat 8 (0xB0 + d), BitVec.ofNat 8 (0xA0 + d), 0x00#8, BitVec.ofNat 8 (0x90 + d)⟩)

/-- The fixture `KEYMAP_T` with `FKEY_BASE = 26` and `FKEY_SENTINEL = 0x00`. -/
def keymapT : KeyTable where
  keymap := fixtureLetters ++ fixtureFkeys
    ++ [⟨0x016, 0x31, 0x21, 0xB1, 0x31⟩, ⟨0x029, 0x20, 0x20, 0x20, 0x20⟩,
        ⟨0x05A, 0x0D, 0x0D, 0x0D, 0x0D⟩, ⟨0x15A, 0x0A, 0x0A, 0x0A, 0x0A⟩]
  fkeyBase := 26
  fkeySentinel := 0x00

/-- The parameters the test vectors of `95_test_vectors.md` use. -/
def fixtureParams : Params where
  table := keymapT
  mods := ModCodes.default
  wave := TandyWave.default
  mbxSplitTake := false

/-! ### The free values -/

/-- Free value (log 3, DESIGN CHOICE, safe): the table the platform supplies; the spec leaves it open (R5, U3, U6). -/
opaque Config.platformTable : KeyTable

/-- Free value (log 5): what `mbx_byte` holds after reset (U1; R30: "a free input of the reset step, not as zero"). -/
opaque Config.mbxByteAtReset : Byte

/-- Free value (log 6): what the cells of `rb_mem` hold after reset (U2, D23). -/
opaque Config.rbMemAtReset : Nat → Byte

/-- Free value (log 15): the bit a BIT action in slot 0 would copy. R150 passes no bit there, and no admissible table has
such an action. -/
opaque Config.startBit : Bool

/-- The table in force from reset: the platform's where it is admissible (U8: an ill-formed one is outside the
platforms the spec speaks of), the spec's fixture otherwise. DESIGN CHOICE (log 3). -/
def resetTable : KeyTable :=
  if Config.platformTable.wf ModCodes.default then Config.platformTable else keymapT

/-- The parameters from reset: the open table, the spec's defaults for the rest (R5, R72, R162; log 3, 4). -/
def Params.reset : Params where
  table := resetTable
  mods := ModCodes.default
  wave := TandyWave.default
  mbxSplitTake := false

end Sys2Proof
end

