-- ==== Sys2Proof/Syntax.lean ====
section
/-! DEFINITION. The operations of the block as syntax: one constructor for each mnemonic of `opcode_table.json`, in the
table's order, with the fields of its encoding, or its call or event operands, as arguments (log 10). And the input
events of R27 and R83. -/

namespace Sys2Proof

/-- An input event: a line of the trace notation (R83). Edges, polls and ticks are the only events (R27). -/
inductive Event where
  /-- `EDGE d`: a falling edge of `ps2_clk` with `ps2_data = d`. -/
  | edge (d : Bool)
  /-- `POLL`: one iteration of the main loop. -/
  | poll
  /-- `TICK r`: one tick with `dev_ready = r`. -/
  | tick (r : Bool)
  deriving DecidableEq, Repr

/-- The operations. `PS2WIN` rows carry the stored (complemented) window bits S, P, D of R62; `XKEY` rows whose mask
leaves bits free carry them; the `TXSLOT` rows that share a mnemonic carry their slot; `CALL` and `EVENT` rows carry the
operands their rules name. -/
inductive Instr where
  -- format PS2WIN (R64)
  | rxShift (stop parity : Bool) (data : Byte)
  | rxAccept (parity : Bool) (data : Byte)
  | rxReject (parity : Bool) (data : Byte)
  -- format XKEY (R73)
  | xlIdle
  | xlPfxE0 (rel esc : Bool)
  | xlPfxF0 (rel esc : Bool)
  | xlRelLshift
  | xlRelRshift
  | xlRelLctrl
  | xlRelRctrl
  | xlRelLalt
  | xlRelRalt
  | xlRelCaps
  | xlRelOther (esc : Bool) (byte : Byte)
  | xlPrsKey (esc : Bool) (byte : Byte)
  | xlPrsFkeyAlt (esc : Bool) (byte : Byte)
  | xlPrsLshift
  | xlPrsRshift
  | xlPrsLctrl
  | xlPrsRctrl
  | xlPrsLalt
  | xlPrsRalt
  | xlPrsCaps
  | xlPrsOther (esc : Bool) (byte : Byte)
  -- format TXSLOT (R78)
  | txIdleHold
  | txStart
  /-- Slots 1, 2, 3: `slot` is `tx_count - 1`. -/
  | txStartHold (slot : Fin 3)
  /-- Slots 4, 8, .., 32: `bit` is the table's `data_bit`, `bitpos - 1`. -/
  | txDataP0 (bit : Fin 8)
  | txDataP1 (bit : Fin 8)
  | txDataP2 (bit : Fin 8)
  | txDataP3 (bit : Fin 8)
  | txStopP0
  | txStopP1
  | txStopP2
  | txStopP3
  -- format CALL (R60)
  | mbxPut (v : Byte)
  | mbxTake
  | rbPush (v : Byte)
  | rbPush2 (v1 v2 : Byte)
  | rbPop
  -- format EVENT (R60)
  | rxEdge (d : Bool)
  | xlPoll
  | txTick (r : Bool)
  deriving DecidableEq, Repr

end Sys2Proof
end

