-- ==== Sys2Proof/Decode.lean ====
section
/-! DEFINITION. The decode maps of the three formats (R60: `PS2WIN` R64, `XKEY` R73, `TXSLOT` R78) and of the trace
characters (R83), total, rejecting by name; the bit fields and the table search they read; and the encoder, from the
same maps. Below them the host's `decodeTableWord`. -/

namespace Sys2Proof

/-! ### What a decoder reads beside the word -/

/-- What decides among rows that share a word: the parameters (`KEYMAP` and the modifier codes, R73), whether `SELECT`
picks the `alt` column (R73 line 6; the `alt` column is picked for every entry or for none, R123), and whether a byte can
be launched (R78: ring non-empty and `dev_ready = 1`). DESIGN CHOICE (log 9): the record. -/
structure DecodeContext where
  params : Params
  altSelected : Bool
  launch : Bool
  deriving DecidableEq, Repr

/-- Why a word is refused. -/
inductive DecodeError where
  /-- `tx_count` values 40 to 63: no meaning assigned (R81(d), D22). -/
  | unreachableSlot (n : Nat)
  /-- A character that is no line of the trace notation (R83). -/
  | notATraceLine (c : Byte)
  deriving DecidableEq, Repr

/-! ### The fields of `PS2WIN` (R62) -/

/-- Bit 10 of a window: the complement of the newest sample (stop position). -/
def winStop (w : Window) : Bool := w.getLsbD 10

/-- Bit 9 of a window: the complement of the parity sample. -/
def winParity (w : Window) : Bool := w.getLsbD 9

/-- Bits 8 to 1 of a window: the complements of the data samples d7 to d0. -/
def winData (w : Window) : Byte := w.extractLsb' 1 8

/-- Bit 0 of a window: the complement of the sample taken ten edges earlier (start position). -/
def winStart (w : Window) : Bool := w.getLsbD 0

/-- One bit at a position of a word of `n` bits. -/
def bitAt (n : Nat) (b : Bool) (i : Nat) : BitVec n := (BitVec.ofBool b).setWidth n <<< i

/-- The window with the given fields: the pattern `SPDDDDDDDDT` of R62. -/
def ps2Word (stop parity : Bool) (data : Byte) (start : Bool) : Window :=
  bitAt 11 stop 10 ||| bitAt 11 parity 9 ||| (data.setWidth 11 <<< 1) ||| bitAt 11 start 0

/-! ### The fields of `XKEY` (R66, R67) and the table search (R122) -/

/-- The word `(rel, esc, byte)` of R66. -/
def xkeyWord (rel esc : Bool) (byte : Byte) : XkeyWord :=
  bitAt 10 rel 9 ||| bitAt 10 esc 8 ||| byte.setWidth 10

/-- Lookup key assembly, `(esc << 8) | byte` (R67). -/
def lookupKey (esc : Bool) (byte : Byte) : Key := bitAt 9 esc 8 ||| byte.setWidth 9

/-- Bit 9 of an `XKEY` word, `is_release`. -/
def xkeyRel (w : XkeyWord) : Bool := w.getLsbD 9

/-- Bit 8 of an `XKEY` word, `is_escaped`. -/
def xkeyEsc (w : XkeyWord) : Bool := w.getLsbD 8

/-- Bits 7 to 0 of an `XKEY` word, the consumed byte. -/
def xkeyByte (w : XkeyWord) : Byte := w.setWidth 8

/-- The byte of a key: its bits 7 to 0. -/
def keyByte (k : Key) : Byte := k.setWidth 8

/-- `LOOKUP(key)` (R122): the least index whose `code` equals the key in the whole 11-bit field, with its entry. -/
def lookup (keymap : List KeyEntry) (key : Key) : Option (Nat × KeyEntry) :=
  match keymap with
  | [] => none
  | e :: rest =>
    if e.code = key.setWidth 11 then some (0, e)
    else (lookup rest key).map (fun (i, f) => (i + 1, f))

/-- Index `i` lies in the function-key range `[FKEY_BASE, FKEY_BASE + 10)` (R54). -/
def inFkeyRange (t : KeyTable) (i : Nat) : Bool := decide (t.fkeyBase ≤ i) && decide (i < t.fkeyBase + nFkeys)

/-! ### The decoders -/

/-- Decode of `PS2WIN` (R64), on the window after the shift. -/
def decodePs2win (w : Window) : Instr :=
  if winStart w then
    if winStop w then .rxReject (winParity w) (winData w) else .rxAccept (winParity w) (winData w)
  else .rxShift (winStop w) (winParity w) (winData w)

/-- Decode of a release (R73 lines 3 and 4): the first modifier code that equals the key, else `XL_REL_OTHER`. -/
def decodeRelease (m : ModCodes) (esc : Bool) (byte : Byte) : Instr :=
  let key := lookupKey esc byte
  if key = m.lshift then .xlRelLshift
  else if key = m.rshift then .xlRelRshift
  else if key = m.lctrl then .xlRelLctrl
  else if key = m.rctrl then .xlRelRctrl
  else if key = m.lalt then .xlRelLalt
  else if key = m.ralt then .xlRelRalt
  else if key = m.caps then .xlRelCaps
  else .xlRelOther esc byte

/-- Decode of a press whose key is not in the table (R73 lines 7 and 8). -/
def decodeUnlisted (m : ModCodes) (esc : Bool) (byte : Byte) : Instr :=
  let key := lookupKey esc byte
  if key = m.lshift then .xlPrsLshift
  else if key = m.rshift then .xlPrsRshift
  else if key = m.lctrl then .xlPrsLctrl
  else if key = m.rctrl then .xlPrsRctrl
  else if key = m.lalt then .xlPrsLalt
  else if key = m.ralt then .xlPrsRalt
  else if key = m.caps then .xlPrsCaps
  else .xlPrsOther esc byte

/-- Decode of a press (R73 lines 5 to 8): the table first, the modifier codes only if the key is not in it. -/
def decodePress (c : DecodeContext) (esc : Bool) (byte : Byte) : Instr :=
  match lookup c.params.table.keymap (lookupKey esc byte) with
  | some (i, _) =>
    if inFkeyRange c.params.table i && c.altSelected then .xlPrsFkeyAlt esc byte else .xlPrsKey esc byte
  | none => decodeUnlisted c.params.mods esc byte

/-- Decode of `XKEY` (R73), first line that applies. -/
def decodeXkey (c : DecodeContext) (w : XkeyWord) : Instr :=
  if xkeyByte w = pfxEscape then .xlPfxE0 (xkeyRel w) (xkeyEsc w)
  else if xkeyByte w = pfxRelease then .xlPfxF0 (xkeyRel w) (xkeyEsc w)
  else if xkeyRel w then decodeRelease c.params.mods (xkeyEsc w) (xkeyByte w)
  else decodePress c (xkeyEsc w) (xkeyByte w)

/-- The slot class of a data bit-time by its phase (R78). -/
def decodeData (bit : Fin 8) (phase : Nat) : Instr :=
  match phase with
  | 0 => .txDataP0 bit
  | 1 => .txDataP1 bit
  | 2 => .txDataP2 bit
  | _ => .txDataP3 bit

/-- Decode of a value `tx_count` can hold (R77, R78). -/
def decodeCount (launch : Bool) (n : TickCount) : Instr :=
  if n.val = 0 then (if launch then .txStart else .txIdleHold)
  else if h : n.val < 4 then .txStartHold ⟨n.val - 1, by omega⟩
  else if h : n.val < 36 then decodeData ⟨n.val / 4 - 1, by omega⟩ (n.val % 4)
  else if n.val = 36 then .txStopP0
  else if n.val = 37 then .txStopP1
  else if n.val = 38 then .txStopP2
  else .txStopP3

/-- Decode of `TXSLOT` (R78); 40 to 63 are refused by name (R81(d)). -/
def decodeTxslot (launch : Bool) (w : SlotWord) : Except DecodeError Instr :=
  if h : w.toNat < 40 then .ok (decodeCount launch ⟨w.toNat, h⟩) else .error (.unreachableSlot w.toNat)

/-- The operation an event triggers (R83, third column). -/
def eventInstr (e : Event) : Instr :=
  match e with
  | .edge d => .rxEdge d
  | .poll => .xlPoll
  | .tick r => .txTick r

/-- The event a character of the trace notation stands for (R83): `0`, `1`, `P`, `t`, `T` in ASCII. -/
def decodeLine (c : Byte) : Except DecodeError Event :=
  if c = 0x30#8 then .ok (.edge false)
  else if c = 0x31#8 then .ok (.edge true)
  else if c = 0x50#8 then .ok .poll
  else if c = 0x74#8 then .ok (.tick false)
  else if c = 0x54#8 then .ok (.tick true)
  else .error (.notATraceLine c)

/-- The decoder of every kind of word. -/
def decode (c : DecodeContext) (w : CodeWord) : Except DecodeError Instr :=
  match w with
  | .ps2win w => .ok (decodePs2win w)
  | .xkey w => .ok (decodeXkey c w)
  | .txslot w => decodeTxslot c.launch w
  | .line b => (decodeLine b).map eventInstr

/-! ### The encoder -/

/-- The `XKEY` word of a key with the given release flag: `(rel << 9) | key` (R67, R73). -/
def xkeyOfKey (rel : Bool) (k : Key) : XkeyWord := bitAt 10 rel 9 ||| k.setWidth 10

/-- The slot number of a data bit-time: `4 * bitpos + phase` with `bitpos = bit + 1` (R77). -/
def dataSlot (bit : Fin 8) (phase : Fin 4) : TickCount :=
  ⟨4 * (bit.val + 1) + phase.val, by omega⟩

/-- The slot number of `TX_START_HOLD`: 1, 2, 3 (R78). -/
def startHoldSlot (slot : Fin 3) : TickCount := ⟨slot.val + 1, by omega⟩

/-- The `TXSLOT` word of a slot. -/
def slotWord (n : TickCount) : SlotWord := BitVec.ofNat 6 n.val

/-- The word of an operation under the parameters in force, by the encodings of R62, R66, R73, R77, R83. The called
operations and `XL_IDLE` have none (R60). -/
def encode (p : Params) (i : Instr) : Option CodeWord :=
  match i with
  | .rxShift stop parity data => some (.ps2win (ps2Word stop parity data false))
  | .rxAccept parity data => some (.ps2win (ps2Word false parity data true))
  | .rxReject parity data => some (.ps2win (ps2Word true parity data true))
  | .xlIdle => none
  | .xlPfxE0 rel esc => some (.xkey (xkeyWord rel esc pfxEscape))
  | .xlPfxF0 rel esc => some (.xkey (xkeyWord rel esc pfxRelease))
  | .xlRelLshift => some (.xkey (xkeyOfKey true p.mods.lshift))
  | .xlRelRshift => some (.xkey (xkeyOfKey true p.mods.rshift))
  | .xlRelLctrl => some (.xkey (xkeyOfKey true p.mods.lctrl))
  | .xlRelRctrl => some (.xkey (xkeyOfKey true p.mods.rctrl))
  | .xlRelLalt => some (.xkey (xkeyOfKey true p.mods.lalt))
  | .xlRelRalt => some (.xkey (xkeyOfKey true p.mods.ralt))
  | .xlRelCaps => some (.xkey (xkeyOfKey true p.mods.caps))
  | .xlRelOther esc byte => some (.xkey (xkeyWord true esc byte))
  | .xlPrsKey esc byte => some (.xkey (xkeyWord false esc byte))
  | .xlPrsFkeyAlt esc byte => some (.xkey (xkeyWord false esc byte))
  | .xlPrsLshift => some (.xkey (xkeyOfKey false p.mods.lshift))
  | .xlPrsRshift => some (.xkey (xkeyOfKey false p.mods.rshift))
  | .xlPrsLctrl => some (.xkey (xkeyOfKey false p.mods.lctrl))
  | .xlPrsRctrl => some (.xkey (xkeyOfKey false p.mods.rctrl))
  | .xlPrsLalt => some (.xkey (xkeyOfKey false p.mods.lalt))
  | .xlPrsRalt => some (.xkey (xkeyOfKey false p.mods.ralt))
  | .xlPrsCaps => some (.xkey (xkeyOfKey false p.mods.caps))
  | .xlPrsOther esc byte => some (.xkey (xkeyWord false esc byte))
  | .txIdleHold => some (.txslot (slotWord 0))
  | .txStart => some (.txslot (slotWord 0))
  | .txStartHold slot => some (.txslot (slotWord (startHoldSlot slot)))
  | .txDataP0 bit => some (.txslot (slotWord (dataSlot bit 0)))
  | .txDataP1 bit => some (.txslot (slotWord (dataSlot bit 1)))
  | .txDataP2 bit => some (.txslot (slotWord (dataSlot bit 2)))
  | .txDataP3 bit => some (.txslot (slotWord (dataSlot bit 3)))
  | .txStopP0 => some (.txslot (slotWord 36))
  | .txStopP1 => some (.txslot (slotWord 37))
  | .txStopP2 => some (.txslot (slotWord 38))
  | .txStopP3 => some (.txslot (slotWord 39))
  | .mbxPut _ => none
  | .mbxTake => none
  | .rbPush _ => none
  | .rbPush2 _ _ => none
  | .rbPop => none
  | .rxEdge d => some (.line (if d then 0x31#8 else 0x30#8))
  | .xlPoll => some (.line 0x50#8)
  | .txTick r => some (.line (if r then 0x54#8 else 0x74#8))

/-! ### A bare word of the opcode table

`opcode_table.json` numbers three formats over overlapping ranges, and several rows over the same word (log 14). A word of
6 or 8 bits is read as `TXSLOT`, of 10 as `XKEY`, of 11 as `PS2WIN`. A word of 16 bits is read in the format of the row
with the most fixed bits among those it matches. DESIGN CHOICE (log 14). -/

/-- The low 10 bits are the press or the release word of one of the default modifier codes (all 10 bits fixed). -/
def isModWord (w : Nat) : Bool := ModCodes.default.toList.any (fun k => decide (k.toNat = w % 512))

/-- The low byte is a prefix (8 bits fixed). -/
def isPfxWord (w : Nat) : Bool := decide (w % 256 = 0xE0) || decide (w % 256 = 0xF0)

/-- The kind of word a bare table word of `nbits` bits is read as. -/
def tableCodeWord (nbits w : Nat) : Option CodeWord :=
  if nbits = 6 ∨ nbits = 8 then (if w < 64 then some (.txslot (BitVec.ofNat 6 w)) else none)
  else if nbits = 10 then (if w < 1024 then some (.xkey (BitVec.ofNat 10 w)) else none)
  else if nbits = 11 then (if w < 2048 then some (.ps2win (BitVec.ofNat 11 w)) else none)
  else if nbits = 16 then
    if 2048 ≤ w then none
    else if 1024 ≤ w then some (.ps2win (BitVec.ofNat 11 w))
    else if isModWord w || isPfxWord w then some (.xkey (BitVec.ofNat 10 w))
    else if w % 2 = 1 then some (.ps2win (BitVec.ofNat 11 w))
    else if 512 ≤ w then some (.xkey (BitVec.ofNat 10 w))
    else some (.ps2win (BitVec.ofNat 11 w))
  else none

/-- The context a bare table word is decoded in: the spec's fixture, no modifier down, nothing to launch (log 14). -/
def tableContext : DecodeContext where
  params := fixtureParams
  altSelected := false
  launch := false

/-- The instruction the decoder reads from a bare table word. -/
def decodeTableWord (nbits w : Nat) : Option Instr :=
  match tableCodeWord nbits w with
  | none => none
  | some cw => (decode tableContext cw).toOption

end Sys2Proof
end

