-- ==== Sys2Proof/Machine/State.lean ====
section
/-! DEFINITION. The state of the block (R10: "There is no other state"), the markers a model may record (R7), the
reasons a step can stop, and the state after power-on (R211). -/

namespace Sys2Proof.Machine

/-- The storage `rb_mem` (R23): pairs of a cell index and a byte. -/
abbrev Memory := List Host.Cell

/-- The canonical form of `rb_mem`: the sixteen cells 0 to 15, rising, each once (R23). No address outside them exists
(R43), so an unlisted address holds no value, and no entry equals one (log 6). -/
abbrev Memory.wf (m : Memory) : Prop := m.map Prod.fst = List.range 16

/-- A marker of the observation trace (log 8): the silent discards `drop E(info)` of R7 and R181, the launches of R168,
and the result of a `CALL` row executed on its own. -/
inductive Mark where
  /-- `E_FRAME(rx_win)`: a frame rejected (R93, R182). -/
  | eFrame (window : Window)
  /-- `E_MBX_OVERWRITE(mbx_byte)`: the older byte lost (R100, R183). -/
  | eMbxOverwrite (old : Byte)
  /-- `E_RB_FULL(byte)` or `E_RB_FULL(first, digit)`: the bytes not committed (R124, R125, R184). -/
  | eRbFull (lost : List Byte)
  /-- `E_UNKNOWN_KEY(key)`: an unrecognised press (R133, R185). -/
  | eUnknownKey (key : Key)
  /-- `launch(v)`: a byte popped for transmission (R168). -/
  | launch (v : Byte)
  /-- The result of `MBX_TAKE` or `RB_POP` executed on its own (R101, R142). -/
  | resultByte (r : Option Byte)
  /-- The result of `RB_PUSH` or `RB_PUSH2` executed on its own (R140, R141). -/
  | resultBool (ok : Bool)
  deriving DecidableEq, Repr

/-- The whole state. One-bit registers are `Bool` (`true` is 1). -/
structure State where
  /-- `rx_win`, 11 bits (R11). -/
  rxWin : Window
  /-- `mbx_byte`, 8 bits (R12). -/
  mbxByte : Byte
  /-- `mbx_ready`, 1 bit (R13). -/
  mbxReady : Bool
  /-- `hist1`, 8 bits: the byte of the previous pass (R14). -/
  hist1 : Byte
  /-- `hist2`, 8 bits: the byte of the pass before that (R14). -/
  hist2 : Byte
  /-- `mod_shift`, 2 bits: left, right (R15). -/
  modShift : ModField
  /-- `mod_ctrl`, 2 bits: left, right (R16). -/
  modCtrl : ModField
  /-- `mod_alt`, 2 bits: left, right (R17). -/
  modAlt : ModField
  /-- `mod_caps`, 2 bits: active, handled (R18). -/
  modCaps : ModField
  /-- `rb_mem[0..15]`, 16 cells of 8 bits (R23). -/
  rbMem : Memory
  /-- `rb_in`, 4 bits (R24). -/
  rbIn : RingIndex
  /-- `rb_out`, 4 bits (R24). -/
  rbOut : RingIndex
  /-- `tx_count`, the naturals below 40 (R20, R81(d)). -/
  txCount : TickCount
  /-- `tx_sr`, 8 bits (R21). -/
  txSr : Byte
  /-- `tandy_clk`, an output latch (R22). -/
  tandyClk : Bool
  /-- `tandy_data`, an output latch (R22). -/
  tandyData : Bool
  /-- `ser_out`, an output latch (R22). -/
  serOut : Bool
  /-- `KEYMAP` and the other parameters (R5, R26, R29); no operation writes it (log 3). -/
  params : Params
  /-- The MODEL's own (log 13): the split take of R219 stands between T1 and T2. -/
  takePending : Bool
  /-- The MODEL's own (log 1): the input events still to come, oldest first (R27, R225). -/
  events : List Event
  /-- The MODEL's own (log 8): the markers so far, newest first. No operation reads it (R7). -/
  trace : List Mark
  deriving DecidableEq, Repr

/-- The faults of the machine. There is none: the block "raises no exception and has no fatal condition" (R180). -/
inductive Fault where
  deriving DecidableEq, Repr

/-- Why an operation is refused. -/
inductive Refusal where
  /-- An instruction without a meaning; no arm of `exec` answers it any more. Safe. -/
  | notModelled (mnemonic : String)
  /-- Raised by `XL_PRS_KEY`, `XL_PRS_FKEY_ALT` and `TX_START` executed on their own in a state where the operand their
  rule takes does not exist (no table entry, no entry of the function-key range, an empty ring): the row's condition
  fails, so no word decodes to it there and no event reaches it. Safe (log 9). -/
  | caseNotSelected (mnemonic : String)
  deriving DecidableEq, Repr

/-- `rb_mem` after reset: sixteen cells of free content (R211, D23; log 6). -/
def Memory.reset : Memory := (List.range 16).map (fun i => (i, Config.rbMemAtReset i))

/-- The state after power-on, the only reset (R210): the table of R211. -/
def State.reset : State where
  rxWin := 0#11
  mbxByte := Config.mbxByteAtReset
  mbxReady := false
  hist1 := 0x00#8
  hist2 := 0x00#8
  modShift := 0#2
  modCtrl := 0#2
  modAlt := 0#2
  modCaps := 0#2
  rbMem := Memory.reset
  rbIn := 0#4
  rbOut := 0#4
  txCount := 0
  txSr := 0x00#8
  tandyClk := true
  tandyData := true
  serOut := true
  params := Params.reset
  takePending := false
  events := []
  trace := []

end Sys2Proof.Machine
end

