-- ==== Sys2Proof/Machine/Flags.lean ====
section
/-! DEFINITION. The computations on ModifierState: the set, clear and toggle of R82(i), the caps-lock transitions of R120
and R132, the derived predicates of R19, and the column selection of R123. -/

namespace Sys2Proof.Machine

/-- Bit of the left key in a modifier field (R15: "Bit 0 is the left shift key"). -/
def leftBit : ModField := 0b01#2

/-- Bit of the right key in a modifier field (R15). -/
def rightBit : ModField := 0b10#2

/-- Single-bit set (R82(i)). -/
def setBits (f b : ModField) : ModField := f ||| b

/-- Single-bit clear (R82(i)). -/
def clearBits (f b : ModField) : ModField := f &&& ~~~b

/-- `mod_caps[0]`: caps-lock is active (R18). -/
def capsActive (f : ModField) : Bool := f.getLsbD 0

/-- `mod_caps[1]`: the press is already handled (R18). -/
def capsHandled (f : ModField) : Bool := f.getLsbD 1

/-- `mod_caps` after a caps-lock press (R132): toggle and set handled, unless handled is set. -/
def capsPress (f : ModField) : ModField :=
  if capsHandled f then f else if capsActive f then 0b10#2 else 0b11#2

/-- `mod_caps` after a caps-lock release (R120): clear handled only. -/
def capsRelease (f : ModField) : ModField := f &&& 0b01#2

/-- `shift_active`, `ctrl_active`, `alt_active` (R19): either key of the field is down. -/
def modActive (f : ModField) : Bool := decide (f ≠ 0#2)

/-- The four columns of a table entry (R68). `plain` is the spec's `none`. -/
inductive Column where
  | ctrl
  | shift
  | alt
  | plain
  deriving DecidableEq, Repr

/-- The byte of an entry in a column (R68). -/
def columnByte (e : KeyEntry) (c : Column) : Byte :=
  match c with
  | .ctrl => e.ctrl
  | .shift => e.shift
  | .alt => e.alt
  | .plain => e.plain

/-- Index `i` is a letter entry (R54, R123). -/
def isLetter (i : Nat) : Bool := decide (i < nLetters)

/-- `SELECT(i)` (R123). -/
def select (s : State) (i : Nat) : Column :=
  if modActive s.modCtrl then .ctrl
  else if modActive s.modAlt then .alt
  else if modActive s.modShift then (if isLetter i && capsActive s.modCaps then .plain else .shift)
  else (if isLetter i && capsActive s.modCaps then .shift else .plain)

/-- `SELECT` picks the `alt` column: `mod_ctrl = 0` and `mod_alt != 0`, whatever the entry (R123, R125). -/
def altSelected (s : State) : Bool := !modActive s.modCtrl && modActive s.modAlt

end Sys2Proof.Machine
end

