-- ==== Sys2Proof/Machine/Operands.lean ====
section
/-! DEFINITION. The operands the operations form: the window after a sample and the byte it holds (R90, R63), the
classification of a consumed byte (R111), the digit of a function key (R76), the slot arithmetic of `tx_count` (R77, R164)
and the context the decoders read. -/

namespace Sys2Proof.Machine

/-- The window after a sample at wire level `d`: `(rx_win >> 1) | (s << 10)` with `s = ~d` (R90, R82(e)). -/
def rxInsert (w : Window) (d : Bool) : Window := (w >>> 1) ||| bitAt 11 (!d) 10

/-- The received byte, `(~rx_win[8:1]) & 0xFF` (R63). -/
def rxByte (w : Window) : Byte := ~~~(winData w)

/-- `rel` of `XL_CLASSIFY` (R111). -/
def isRelease (hist1 : Byte) : Bool := decide (hist1 = pfxRelease)

/-- `esc` of `XL_CLASSIFY` (R111): an escape prefix immediately before, a release prefix between allowed. -/
def isEscaped (hist2 hist1 : Byte) : Bool :=
  decide (hist1 = pfxEscape) || (decide (hist1 = pfxRelease) && decide (hist2 = pfxEscape))

/-- The `XKEY` word formed for a consumed byte (R66, R111). For a prefix byte the two flag bits do not matter; the word
holds them all the same (log 12). -/
def formXkey (s : State) (b : Byte) : XkeyWord := xkeyWord (isRelease s.hist1) (isEscaped s.hist2 s.hist1) b

/-- The lookup key formed for a consumed byte (R111). -/
def formKey (s : State) (b : Byte) : Key := lookupKey (isEscaped s.hist2 s.hist1) b

/-- The digit of the function key at index `i`: `0x30 + (i - FKEY_BASE)` (R76). -/
def fkeyDigit (t : KeyTable) (i : Nat) : Byte := 0x30#8 + BitVec.ofNat 8 (i - t.fkeyBase)

/-- The bit next to emit, `tx_sr[0]` (R21). -/
def txBit (s : State) : Bool := s.txSr.getLsbD 0

/-- `tx_count` after an active tick: 39 gives 0, else one more (R164). -/
def nextCount (c : TickCount) : TickCount := if h : c.val = 39 then 0 else ⟨c.val + 1, by omega⟩

/-- `bitpos` of a slot (R77). -/
def bitpos (c : TickCount) : Nat := c.val / 4

/-- `phase` of a slot (R77). -/
def phase (c : TickCount) : Nat := c.val % 4

/-- The bit position is one of the eight data bit-times (R77). -/
def isDataSlot (c : TickCount) : Bool := decide (1 ≤ bitpos c) && decide (bitpos c ≤ 8)

/-- The ring holds a byte and the device is ready: the start test of `TX_TICK` (R150, R152). -/
def canLaunch (s : State) (r : Bool) : Bool := decide (s.rbIn ≠ s.rbOut) && r

/-- What the decoders read of the state, with `dev_ready = r` for the slot decoder. -/
def decodeContext (s : State) (r : Bool) : DecodeContext where
  params := s.params
  altSelected := altSelected s
  launch := canLaunch s r

end Sys2Proof.Machine
end

