-- ==== Sys2Proof/Machine/Ops.lean ====
section
/-! DEFINITION. The operations every meaning is made of: the cells of `rb_mem`, the markers, the mailbox (R100, R101), the
ring buffer (R140 to R142), the history (R134), the legacy lines (R150, APPLY), the emission of the translator, and the
entry of an event (R190). -/

namespace Sys2Proof.Machine

/-! ### The cells of `rb_mem` (R23, R43) -/

/-- The byte at an address: the first entry that lists it. In a well-formed memory every cell is listed (log 6). -/
def Memory.readAt (m : Memory) (a : Nat) : Byte :=
  match m with
  | [] => Config.rbMemAtReset a
  | (b, v) :: rest => if b = a then v else Memory.readAt rest a

/-- The memory with a byte at an address, in rising order. -/
def Memory.writeAt (m : Memory) (a : Nat) (v : Byte) : Memory :=
  match m with
  | [] => [(a, v)]
  | (b, w) :: rest =>
    if b = a then (a, v) :: rest
    else if a < b then (a, v) :: (b, w) :: rest
    else (b, w) :: Memory.writeAt rest a v

/-- `MemRead(i, 1)`: `rb_mem[i mod 16]` (R7). -/
def rbRead (m : Memory) (i : RingIndex) : Byte := m.readAt i.toNat

/-- `MemWrite(i, 1, v)`: `rb_mem[i mod 16] <- v` (R7). -/
def rbWrite (m : Memory) (i : RingIndex) (v : Byte) : Memory := m.writeAt i.toNat v

/-! ### Markers -/

/-- Record a marker: `drop E(info)` and `launch(v)` write no state of the block (R7, R168; log 8). -/
def note (k : Mark) (s : State) : State := { s with trace := k :: s.trace }

/-! ### The mailbox (R100, R101) -/

/-- `MBX_PUT(v)` (R100): the writes are unconditional; a pending byte is lost with a marker. -/
def mbxPut (v : Byte) (s : State) : State :=
  { (if s.mbxReady then note (.eMbxOverwrite s.mbxByte) s else s) with mbxByte := v, mbxReady := true }

/-- `MBX_TAKE` (R101): test, clear and read in one step. -/
def mbxTake (s : State) : Option Byte × State :=
  if s.mbxReady then (some s.mbxByte, { s with mbxReady := false }) else (none, s)

/-! ### The ring buffer (R140 to R142) -/

/-- `rb_count = (rb_in - rb_out) mod 16` (R25). -/
def rbCount (s : State) : RingIndex := s.rbIn - s.rbOut

/-- `RB_PUSH(v)` (R140). -/
def rbPush (v : Byte) (s : State) : Bool × State :=
  if s.rbIn + 1#4 = s.rbOut then (false, s)
  else (true, { s with rbMem := rbWrite s.rbMem s.rbIn v, rbIn := s.rbIn + 1#4 })

/-- `RB_PUSH2(v1, v2)` (R141): both bytes or neither, one write of `rb_in`. -/
def rbPush2 (v1 v2 : Byte) (s : State) : Bool × State :=
  if 14#4 ≤ rbCount s then (false, s)
  else (true, { s with rbMem := rbWrite (rbWrite s.rbMem s.rbIn v1) (s.rbIn + 1#4) v2, rbIn := s.rbIn + 2#4 })

/-- `RB_POP` (R142). -/
def rbPop (s : State) : Option Byte × State :=
  if s.rbIn = s.rbOut then (none, s)
  else (some (rbRead s.rbMem s.rbOut), { s with rbOut := s.rbOut + 1#4 })

/-! ### The translator's shared operations -/

/-- The history update at the end of a pass that consumed `b` (R134). -/
def historyUpdate (b : Byte) (s : State) : State := { s with hist2 := s.hist1, hist1 := b }

/-- Push one byte or drop it with `E_RB_FULL` (R124). -/
def emit (v : Byte) (s : State) : State :=
  match rbPush v s with
  | (true, t) => t
  | (false, t) => note (.eRbFull [v]) t

/-- Push a pair or drop it whole with `E_RB_FULL` (R125). -/
def emit2 (v1 v2 : Byte) (s : State) : State :=
  match rbPush2 v1 v2 s with
  | (true, t) => t
  | (false, t) => note (.eRbFull [v1, v2]) t

/-! ### The legacy lines -/

/-- `APPLY((clk_act, data_act), b0)` (R150). -/
def applySlot (a : TandySlot) (b0 : Bool) (s : State) : State :=
  { s with tandyClk := a.clk.level b0 s.tandyClk, tandyData := a.data.level b0 s.tandyData }

/-- The legacy actions of slot `c` of the table in force, with the bit now at `tx_sr[0]` (R150, R162). -/
def applyWave (c : TickCount) (s : State) : State := applySlot (s.params.wave.get c) (txBit s) s

/-! ### Event entry and return (R190, R191) -/

/-- The entry of the next event: it "saves no state and changes no mode" (R190), so the event leaves the queue and nothing
else happens. There is no return operation (R191): the operation's end is the return. -/
def takeEvent (s : State) : Option (Event × State) :=
  match s.events with
  | [] => none
  | e :: rest => some (e, { s with events := rest })

end Sys2Proof.Machine
end

