-- ==== Sys2Proof/Machine/Receiver.lean ====
section
/-! DEFINITION. The receiver's three cases (R91 to R93), each on the window its word encodes: the window after the shift
of `RX_EDGE`. -/

namespace Sys2Proof.Machine

/-- Case `RX_SHIFT` on a window (R91): the shifted window is kept. -/
def keepWindow (w : Window) (s : State) : State := { s with rxWin := w }

/-- Case `RX_ACCEPT` on a window (R92): deliver the byte, empty the window. -/
def acceptWindow (w : Window) (s : State) : State := { mbxPut (rxByte w) s with rxWin := 0#11 }

/-- Case `RX_REJECT` on a window (R93): deliver nothing, empty the window. -/
def rejectWindow (w : Window) (s : State) : State := { note (.eFrame w) s with rxWin := 0#11 }

/-- `RX_SHIFT` (R91). -/
def execRxShift (stop parity : Bool) (data : Byte) (s : State) : Host.Outcome State Fault Refusal :=
  .next (keepWindow (ps2Word stop parity data false) s)

/-- `RX_ACCEPT` (R92). -/
def execRxAccept (parity : Bool) (data : Byte) (s : State) : Host.Outcome State Fault Refusal :=
  .next (acceptWindow (ps2Word false parity data true) s)

/-- `RX_REJECT` (R93). -/
def execRxReject (parity : Bool) (data : Byte) (s : State) : Host.Outcome State Fault Refusal :=
  .next (rejectWindow (ps2Word true parity data true) s)

end Sys2Proof.Machine
end

