-- ==== Sys2Proof/Machine/Translator.lean ====
section
/-! DEFINITION. The translator's cases (R112 to R133). A case is the part of a pass between the classification and the end
of the pass, so each ends with the history update of R134 for the byte of its word. -/

namespace Sys2Proof.Machine

/-! ### The cases' effects on ModifierState and the output -/

/-- A release of a shift key (R114, R115). -/
def releaseShift (b : ModField) (s : State) : State := { s with modShift := clearBits s.modShift b }

/-- A release of a ctrl key (R116, R117). -/
def releaseCtrl (b : ModField) (s : State) : State := { s with modCtrl := clearBits s.modCtrl b }

/-- A release of an alt key (R118, R119). -/
def releaseAlt (b : ModField) (s : State) : State := { s with modAlt := clearBits s.modAlt b }

/-- A release of caps-lock (R120). -/
def releaseCaps (s : State) : State := { s with modCaps := capsRelease s.modCaps }

/-- A press of a shift key (R126, R127). -/
def pressShift (b : ModField) (s : State) : State := { s with modShift := setBits s.modShift b }

/-- A press of a ctrl key (R128, R129). -/
def pressCtrl (b : ModField) (s : State) : State := { s with modCtrl := setBits s.modCtrl b }

/-- A press of an alt key (R130, R131). -/
def pressAlt (b : ModField) (s : State) : State := { s with modAlt := setBits s.modAlt b }

/-- A press of caps-lock (R132). -/
def pressCaps (s : State) : State := { s with modCaps := capsPress s.modCaps }

/-- The emission of a table entry in the selected column (R124). -/
def emitEntry (i : Nat) (e : KeyEntry) (s : State) : State := emit (columnByte e (select s i)) s

/-- The two-byte emission of a function key (R125): the entry's `alt` byte, then the digit. -/
def emitFkey (i : Nat) (e : KeyEntry) (s : State) : State := emit2 e.alt (fkeyDigit s.params.table i) s

/-! ### The meanings -/

/-- `XL_IDLE` (R110): no byte was taken, nothing changes. -/
def execXlIdle (s : State) : Host.Outcome State Fault Refusal := .next s

/-- `XL_PFX_E0` (R112): nothing but the history update. -/
def execXlPfxE0 (s : State) : Host.Outcome State Fault Refusal := .next (historyUpdate pfxEscape s)

/-- `XL_PFX_F0` (R113): nothing but the history update. -/
def execXlPfxF0 (s : State) : Host.Outcome State Fault Refusal := .next (historyUpdate pfxRelease s)

/-- `XL_REL_LSHIFT` (R114). -/
def execXlRelLshift (s : State) : Host.Outcome State Fault Refusal :=
  .next (historyUpdate (keyByte s.params.mods.lshift) (releaseShift leftBit s))

/-- `XL_REL_RSHIFT` (R115). -/
def execXlRelRshift (s : State) : Host.Outcome State Fault Refusal :=
  .next (historyUpdate (keyByte s.params.mods.rshift) (releaseShift rightBit s))

/-- `XL_REL_LCTRL` (R116). -/
def execXlRelLctrl (s : State) : Host.Outcome State Fault Refusal :=
  .next (historyUpdate (keyByte s.params.mods.lctrl) (releaseCtrl leftBit s))

/-- `XL_REL_RCTRL` (R117). -/
def execXlRelRctrl (s : State) : Host.Outcome State Fault Refusal :=
  .next (historyUpdate (keyByte s.params.mods.rctrl) (releaseCtrl rightBit s))

/-- `XL_REL_LALT` (R118). -/
def execXlRelLalt (s : State) : Host.Outcome State Fault Refusal :=
  .next (historyUpdate (keyByte s.params.mods.lalt) (releaseAlt leftBit s))

/-- `XL_REL_RALT` (R119). -/
def execXlRelRalt (s : State) : Host.Outcome State Fault Refusal :=
  .next (historyUpdate (keyByte s.params.mods.ralt) (releaseAlt rightBit s))

/-- `XL_REL_CAPS` (R120). -/
def execXlRelCaps (s : State) : Host.Outcome State Fault Refusal :=
  .next (historyUpdate (keyByte s.params.mods.caps) (releaseCaps s))

/-- `XL_REL_OTHER` (R121): no state changes except the history update. -/
def execXlRelOther (byte : Byte) (s : State) : Host.Outcome State Fault Refusal := .next (historyUpdate byte s)

/-- `XL_PRS_KEY` (R124). Its operand is the entry the key is found at; executed on its own with a key that is not in the
table it is refused (log 9). -/
def execXlPrsKey (esc : Bool) (byte : Byte) (s : State) : Host.Outcome State Fault Refusal :=
  match lookup s.params.table.keymap (lookupKey esc byte) with
  | some (i, e) => .next (historyUpdate byte (emitEntry i e s))
  | none => .refused (.caseNotSelected "XL_PRS_KEY")

/-- `XL_PRS_FKEY_ALT` (R125). Its operand is the function-key entry the key is found at; executed on its own with another
key it is refused (log 9). -/
def execXlPrsFkeyAlt (esc : Bool) (byte : Byte) (s : State) : Host.Outcome State Fault Refusal :=
  match lookup s.params.table.keymap (lookupKey esc byte) with
  | some (i, e) =>
    if inFkeyRange s.params.table i then .next (historyUpdate byte (emitFkey i e s))
    else .refused (.caseNotSelected "XL_PRS_FKEY_ALT")
  | none => .refused (.caseNotSelected "XL_PRS_FKEY_ALT")

/-- `XL_PRS_LSHIFT` (R126). -/
def execXlPrsLshift (s : State) : Host.Outcome State Fault Refusal :=
  .next (historyUpdate (keyByte s.params.mods.lshift) (pressShift leftBit s))

/-- `XL_PRS_RSHIFT` (R127). -/
def execXlPrsRshift (s : State) : Host.Outcome State Fault Refusal :=
  .next (historyUpdate (keyByte s.params.mods.rshift) (pressShift rightBit s))

/-- `XL_PRS_LCTRL` (R128). -/
def execXlPrsLctrl (s : State) : Host.Outcome State Fault Refusal :=
  .next (historyUpdate (keyByte s.params.mods.lctrl) (pressCtrl leftBit s))

/-- `XL_PRS_RCTRL` (R129). -/
def execXlPrsRctrl (s : State) : Host.Outcome State Fault Refusal :=
  .next (historyUpdate (keyByte s.params.mods.rctrl) (pressCtrl rightBit s))

/-- `XL_PRS_LALT` (R130). -/
def execXlPrsLalt (s : State) : Host.Outcome State Fault Refusal :=
  .next (historyUpdate (keyByte s.params.mods.lalt) (pressAlt leftBit s))

/-- `XL_PRS_RALT` (R131). -/
def execXlPrsRalt (s : State) : Host.Outcome State Fault Refusal :=
  .next (historyUpdate (keyByte s.params.mods.ralt) (pressAlt rightBit s))

/-- `XL_PRS_CAPS` (R132). -/
def execXlPrsCaps (s : State) : Host.Outcome State Fault Refusal :=
  .next (historyUpdate (keyByte s.params.mods.caps) (pressCaps s))

/-- `XL_PRS_OTHER` (R133): `drop E_UNKNOWN_KEY(key)`, no state changes except the history update. -/
def execXlPrsOther (esc : Bool) (byte : Byte) (s : State) : Host.Outcome State Fault Refusal :=
  .next (historyUpdate byte (note (.eUnknownKey (lookupKey esc byte)) s))

end Sys2Proof.Machine
end

