-- ==== Sys2Proof/Machine/Transmit.lean ====
section
/-! DEFINITION. The transmit engine's slot cases (R151 to R161), each with the slot its word encodes. The lines on
`tandy_clk` and `tandy_data` are per the `TANDY_WAVE` in force (R162); slot 0 is applied by `TX_START` only. -/

namespace Sys2Proof.Machine

/-- The launch of a byte (R152): `RB_POP` into `tx_sr`, the asynchronous start bit, the legacy start condition, Active.
`none` where the ring is empty. R150 passes no bit to slot 0: a BIT action there would copy a free value (log 15). -/
def launchByte (s : State) : Option State :=
  match rbPop s with
  | (some v, t) =>
    some { note (.launch v) (applySlot (t.params.wave.get 0) Config.startBit t) with
      txSr := v, serOut := false, txCount := 1 }
  | (none, _) => none

/-- The end of every active tick: the counter of slot `c` advances (R164). -/
def advance (c : TickCount) (s : State) : State := { s with txCount := nextCount c }

/-- `TX_IDLE_HOLD` (R151): nothing is written. -/
def execTxIdleHold (s : State) : Host.Outcome State Fault Refusal := .next s

/-- `TX_START` (R152). Executed on its own with an empty ring there is no byte to launch and it is refused (log 9). -/
def execTxStart (s : State) : Host.Outcome State Fault Refusal :=
  match launchByte s with
  | some t => .next t
  | none => .refused (.caseNotSelected "TX_START")

/-- `TX_START_HOLD` (R153). -/
def execTxStartHold (slot : Fin 3) (s : State) : Host.Outcome State Fault Refusal :=
  .next (advance (startHoldSlot slot) (applyWave (startHoldSlot slot) s))

/-- `TX_DATA_P0` (R154): `ser_out <- tx_sr[0]`. -/
def execTxDataP0 (bit : Fin 8) (s : State) : Host.Outcome State Fault Refusal :=
  .next (advance (dataSlot bit 0) { applyWave (dataSlot bit 0) s with serOut := txBit s })

/-- `TX_DATA_P1` (R155). -/
def execTxDataP1 (bit : Fin 8) (s : State) : Host.Outcome State Fault Refusal :=
  .next (advance (dataSlot bit 1) (applyWave (dataSlot bit 1) s))

/-- `TX_DATA_P2` (R156). -/
def execTxDataP2 (bit : Fin 8) (s : State) : Host.Outcome State Fault Refusal :=
  .next (advance (dataSlot bit 2) (applyWave (dataSlot bit 2) s))

/-- `TX_DATA_P3` (R157): the shift happens after the lines are written. -/
def execTxDataP3 (bit : Fin 8) (s : State) : Host.Outcome State Fault Refusal :=
  .next (advance (dataSlot bit 3) { applyWave (dataSlot bit 3) s with txSr := s.txSr >>> 1 })

/-- `TX_STOP_P0` (R158): `ser_out <- 1`. -/
def execTxStopP0 (s : State) : Host.Outcome State Fault Refusal :=
  .next (advance 36 { applyWave 36 s with serOut := true })

/-- `TX_STOP_P1` (R159). -/
def execTxStopP1 (s : State) : Host.Outcome State Fault Refusal := .next (advance 37 (applyWave 37 s))

/-- `TX_STOP_P2` (R160). -/
def execTxStopP2 (s : State) : Host.Outcome State Fault Refusal := .next (advance 38 (applyWave 38 s))

/-- `TX_STOP_P3` (R161): `tx_count <- 0`. -/
def execTxStopP3 (s : State) : Host.Outcome State Fault Refusal := .next (advance 39 (applyWave 39 s))

end Sys2Proof.Machine
end

