-- ==== Sys2Proof/Machine/Events.lean ====
section
/-! DEFINITION. The three events' operations, from the pseudocode of R90, R110 and R150: each forms its agent's word from
the state, selects a case and performs it, in one atomic step (R8, R47). That the case performed is the one the decoder
of Decode.lean selects is a statement, not a definition. -/

namespace Sys2Proof.Machine

/-- `RX_EDGE(d)` (R90). -/
def execRxEdge (d : Bool) (s : State) : Host.Outcome State Fault Refusal :=
  let w := rxInsert s.rxWin d
  if w.getLsbD 0 then
    if w.getLsbD 10 then .next (rejectWindow w s) else .next (acceptWindow w s)
  else .next (keepWindow w s)

/-- The release path (R114 to R121): the key against the seven codes, no table search. -/
def releasePath (key : Key) (s : State) : State :=
  let m := s.params.mods
  if key = m.lshift then releaseShift leftBit s
  else if key = m.rshift then releaseShift rightBit s
  else if key = m.lctrl then releaseCtrl leftBit s
  else if key = m.rctrl then releaseCtrl rightBit s
  else if key = m.lalt then releaseAlt leftBit s
  else if key = m.ralt then releaseAlt rightBit s
  else if key = m.caps then releaseCaps s
  else s

/-- The press path for a key that is not in the table (R126 to R133). -/
def unlistedPath (key : Key) (s : State) : State :=
  let m := s.params.mods
  if key = m.lshift then pressShift leftBit s
  else if key = m.rshift then pressShift rightBit s
  else if key = m.lctrl then pressCtrl leftBit s
  else if key = m.rctrl then pressCtrl rightBit s
  else if key = m.lalt then pressAlt leftBit s
  else if key = m.ralt then pressAlt rightBit s
  else if key = m.caps then pressCaps s
  else note (.eUnknownKey key) s

/-- The press path (R122 to R133): table first; the pair where a function key is found and `SELECT` gives `alt`. -/
def pressPath (key : Key) (s : State) : State :=
  match lookup s.params.table.keymap key with
  | some (i, e) =>
    if inFkeyRange s.params.table i && decide (select s i = .alt) then emitFkey i e s else emitEntry i e s
  | none => unlistedPath key s

/-- A pass over a consumed byte (R110 from its third line): prefix, release or press, then the history (R134). -/
def translate (b : Byte) (s : State) : State :=
  historyUpdate b
    (if b = pfxEscape then s
    else if b = pfxRelease then s
    else if isRelease s.hist1 then releasePath (formKey s b) s
    else pressPath (formKey s b) s)

/-- The poll with the atomic take (R110, R101): `XL_IDLE` where the mailbox is empty. -/
def pollAtomic (s : State) : State :=
  match mbxTake s with
  | (none, t) => t
  | (some b, t) => translate b t

/-- The poll with the take in two steps (R219): `T1: mbx_ready <- 0`, and at the next poll `T2: b <- mbx_byte` with the
rest of the pass. Two `poll` events make one iteration that consumes a byte, so that any events may stand between T1 and
T2. DESIGN CHOICE (log 13). -/
def pollSplit (s : State) : State :=
  if s.takePending then translate s.mbxByte { s with takePending := false }
  else if s.mbxReady then { s with mbxReady := false, takePending := true }
  else s

/-- `XL_POLL` (R110), with the take `MBX_SPLIT_TAKE` asks for (R5, R219). -/
def execXlPoll (s : State) : Host.Outcome State Fault Refusal :=
  if s.params.mbxSplitTake then .next (pollSplit s) else .next (pollAtomic s)

/-- The tick at `tx_count = 0` (R150): launch a byte where the ring is non-empty and the device ready, else hold. -/
def idleTick (r : Bool) (s : State) : State :=
  if canLaunch s r then (launchByte s).getD s else s

/-- The tick at `tx_count != 0` (R150), line by line. -/
def activeTick (s : State) : State :=
  let c := s.txCount
  let b0 := txBit s
  let s1 := if isDataSlot c && decide (phase c = 0) then { s with serOut := b0 } else s
  let s2 := if decide (bitpos c = 9) && decide (phase c = 0) then { s1 with serOut := true } else s1
  let s3 := applySlot (s.params.wave.get c) b0 s2
  let s4 := if isDataSlot c && decide (phase c = 3) then { s3 with txSr := s3.txSr >>> 1 } else s3
  { s4 with txCount := nextCount c }

/-- `TX_TICK(r)` (R150). -/
def execTxTick (r : Bool) (s : State) : Host.Outcome State Fault Refusal :=
  if s.txCount = 0 then .next (idleTick r s) else .next (activeTick s)

end Sys2Proof.Machine
end

