-- ==== Sys2Proof/Machine/Mailbox.lean ====
section
/-! DEFINITION. The mailbox rows executed on their own (R100, R101). In the block they run only inside `RX_EDGE` and
`XL_POLL`; on their own their result, which has no caller to go to, is recorded as a marker (log 8). -/

namespace Sys2Proof.Machine

/-- `MBX_PUT(v)` (R100). -/
def execMbxPut (v : Byte) (s : State) : Host.Outcome State Fault Refusal := .next (mbxPut v s)

/-- `MBX_TAKE` (R101). -/
def execMbxTake (s : State) : Host.Outcome State Fault Refusal :=
  .next (note (.resultByte (mbxTake s).1) (mbxTake s).2)

end Sys2Proof.Machine
end

