-- ==== Sys2Proof/Machine/RingBuffer.lean ====
section
/-! DEFINITION. The ring-buffer rows executed on their own (R140 to R142). In the block they run only inside the
translator's press cases and `TX_START`; on their own their result is recorded as a marker (log 8). -/

namespace Sys2Proof.Machine

/-- `RB_PUSH(v)` (R140). -/
def execRbPush (v : Byte) (s : State) : Host.Outcome State Fault Refusal :=
  .next (note (.resultBool (rbPush v s).1) (rbPush v s).2)

/-- `RB_PUSH2(v1, v2)` (R141). -/
def execRbPush2 (v1 v2 : Byte) (s : State) : Host.Outcome State Fault Refusal :=
  .next (note (.resultBool (rbPush2 v1 v2 s).1) (rbPush2 v1 v2 s).2)

/-- `RB_POP` (R142). -/
def execRbPop (s : State) : Host.Outcome State Fault Refusal :=
  .next (note (.resultByte (rbPop s).1) (rbPop s).2)

end Sys2Proof.Machine
end

