-- ==== Sys2Proof/Machine/Dispatch.lean ====
section
/-! DEFINITION. One arm for each operation, each one direct call of its meaning. -/

namespace Sys2Proof.Machine

def exec (i : Instr) (s : State) : Host.Outcome State Fault Refusal :=
  match i with
  | .rxShift stop parity data => Sys2Proof.Machine.execRxShift stop parity data s
  | .rxAccept parity data => Sys2Proof.Machine.execRxAccept parity data s
  | .rxReject parity data => Sys2Proof.Machine.execRxReject parity data s
  | .xlIdle => Sys2Proof.Machine.execXlIdle s
  | .xlPfxE0 _ _ => Sys2Proof.Machine.execXlPfxE0 s
  | .xlPfxF0 _ _ => Sys2Proof.Machine.execXlPfxF0 s
  | .xlRelLshift => Sys2Proof.Machine.execXlRelLshift s
  | .xlRelRshift => Sys2Proof.Machine.execXlRelRshift s
  | .xlRelLctrl => Sys2Proof.Machine.execXlRelLctrl s
  | .xlRelRctrl => Sys2Proof.Machine.execXlRelRctrl s
  | .xlRelLalt => Sys2Proof.Machine.execXlRelLalt s
  | .xlRelRalt => Sys2Proof.Machine.execXlRelRalt s
  | .xlRelCaps => Sys2Proof.Machine.execXlRelCaps s
  | .xlRelOther _ byte => Sys2Proof.Machine.execXlRelOther byte s
  | .xlPrsKey esc byte => Sys2Proof.Machine.execXlPrsKey esc byte s
  | .xlPrsFkeyAlt esc byte => Sys2Proof.Machine.execXlPrsFkeyAlt esc byte s
  | .xlPrsLshift => Sys2Proof.Machine.execXlPrsLshift s
  | .xlPrsRshift => Sys2Proof.Machine.execXlPrsRshift s
  | .xlPrsLctrl => Sys2Proof.Machine.execXlPrsLctrl s
  | .xlPrsRctrl => Sys2Proof.Machine.execXlPrsRctrl s
  | .xlPrsLalt => Sys2Proof.Machine.execXlPrsLalt s
  | .xlPrsRalt => Sys2Proof.Machine.execXlPrsRalt s
  | .xlPrsCaps => Sys2Proof.Machine.execXlPrsCaps s
  | .xlPrsOther esc byte => Sys2Proof.Machine.execXlPrsOther esc byte s
  | .txIdleHold => Sys2Proof.Machine.execTxIdleHold s
  | .txStart => Sys2Proof.Machine.execTxStart s
  | .txStartHold slot => Sys2Proof.Machine.execTxStartHold slot s
  | .txDataP0 bit => Sys2Proof.Machine.execTxDataP0 bit s
  | .txDataP1 bit => Sys2Proof.Machine.execTxDataP1 bit s
  | .txDataP2 bit => Sys2Proof.Machine.execTxDataP2 bit s
  | .txDataP3 bit => Sys2Proof.Machine.execTxDataP3 bit s
  | .txStopP0 => Sys2Proof.Machine.execTxStopP0 s
  | .txStopP1 => Sys2Proof.Machine.execTxStopP1 s
  | .txStopP2 => Sys2Proof.Machine.execTxStopP2 s
  | .txStopP3 => Sys2Proof.Machine.execTxStopP3 s
  | .mbxPut v => Sys2Proof.Machine.execMbxPut v s
  | .mbxTake => Sys2Proof.Machine.execMbxTake s
  | .rbPush v => Sys2Proof.Machine.execRbPush v s
  | .rbPush2 v1 v2 => Sys2Proof.Machine.execRbPush2 v1 v2 s
  | .rbPop => Sys2Proof.Machine.execRbPop s
  | .rxEdge d => Sys2Proof.Machine.execRxEdge d s
  | .xlPoll => Sys2Proof.Machine.execXlPoll s
  | .txTick r => Sys2Proof.Machine.execTxTick r s

end Sys2Proof.Machine
end

