-- ==== Sys2Proof/Machine/Fetch.lean ====
section
/-! DEFINITION. How a bare table word is put where the next step forms it (log 14). The block fetches nothing (R20, R53):
the word of an agent is formed from its registers at an event, so the registers and the event are set here. -/

namespace Sys2Proof.Machine

/-- The state with an event put at the head of the input queue. -/
def pushEvent (e : Event) (s : State) : State := { s with events := e :: s.events }

/-- The state whose next edge shifts the window into `w`: the window one edge earlier and the sample that enters. -/
def placeWindow (w : Window) (s : State) : State :=
  pushEvent (.edge (!winStop w)) { s with rxWin := w <<< 1 }

/-- The state whose next poll forms the `XKEY` word `w`: a pending byte and a history that gives its two flags (R66). A
press word is resolved by the table, so the table is the fixture's and no modifier is down (log 14). -/
def placeXkey (w : XkeyWord) (s : State) : State :=
  pushEvent .poll
    { s with
      mbxByte := xkeyByte w
      mbxReady := true
      hist1 := if xkeyRel w then pfxRelease else if xkeyEsc w then pfxEscape else 0x00#8
      hist2 := if xkeyEsc w then pfxEscape else 0x00#8
      modCtrl := 0#2
      modAlt := 0#2
      params := fixtureParams }

/-- The state whose next tick decodes the slot `w`: the counter, and a tick. The device is not ready at that tick, so slot 0
is `TX_IDLE_HOLD` whatever the ring holds (log 14). A value that the counter cannot hold changes nothing. -/
def placeSlot (w : SlotWord) (s : State) : State :=
  if h : w.toNat < 40 then pushEvent (.tick false) { s with txCount := ⟨w.toNat, h⟩ } else s

/-- The state with a trace line at the head of the queue; a character that is no line changes nothing. -/
def placeLine (c : Byte) (s : State) : State :=
  match decodeLine c with
  | .ok e => pushEvent e s
  | .error _ => s

/-- The state with a word placed for its agent. -/
def placeWord (cw : CodeWord) (s : State) : State :=
  match cw with
  | .ps2win w => placeWindow w s
  | .xkey w => placeXkey w s
  | .txslot w => placeSlot w s
  | .line c => placeLine c s

/-- The state with a bare table word placed where the next step forms it. -/
def placeTableWord (s : State) (nbits w : Nat) : State :=
  match tableCodeWord nbits w with
  | none => s
  | some cw => placeWord cw s

end Sys2Proof.Machine
end

