-- ==== Sys2Proof/Safety.lean ====
section
/-! DEFINITION. The terms claims are stated in: the queue of live bytes (R23, R25), frames of events (R61, R84), quiescence
(R230), what an operation leaves unchanged, and the invariant of the block. -/

namespace Sys2Proof.Machine

/-- The queued bytes, oldest first: the live cells from `rb_out` up to but not including `rb_in` (R23, R25). -/
def queue (s : State) : List Byte :=
  (List.range (rbCount s).toNat).map (fun k => rbRead s.rbMem (s.rbOut + BitVec.ofNat 4 k))

/-- `FRAMEX start b parity stop` (R84): the eleven edges of a frame, data bit 0 first (R61). -/
def frameEvents (start : Bool) (b : Byte) (parity stop : Bool) : List Event :=
  .edge start :: ((List.range 8).map (fun k => .edge (b.getLsbD k)) ++ [.edge parity, .edge stop])

/-- The block is quiescent: the four conditions of R230, which names no others. DESIGN CHOICE (log 13): the spec does not say
whether the block is quiescent between T1 and T2 of the split take, and here `takePending` takes no part, so with
`MBX_SPLIT_TAKE` on this can hold while a taken byte is still to be translated. -/
abbrev quiescent (s : State) : Prop :=
  s.mbxReady = false ∧ s.rbIn = s.rbOut ∧ s.txCount = 0 ∧ s.rxWin = 0#11

/-! ### Frames: what an operation leaves as it was -/

/-- The window is unchanged. -/
structure SameReceiver (s t : State) : Prop where
  rxWin : t.rxWin = s.rxWin

/-- The mailbox is unchanged. -/
structure SameMailbox (s t : State) : Prop where
  mbxByte : t.mbxByte = s.mbxByte
  mbxReady : t.mbxReady = s.mbxReady

/-- The history is unchanged. -/
structure SameHistory (s t : State) : Prop where
  hist1 : t.hist1 = s.hist1
  hist2 : t.hist2 = s.hist2

/-- ModifierState is unchanged. -/
structure SameModifiers (s t : State) : Prop where
  modShift : t.modShift = s.modShift
  modCtrl : t.modCtrl = s.modCtrl
  modAlt : t.modAlt = s.modAlt
  modCaps : t.modCaps = s.modCaps

/-- Every address of `rb_mem` reads as before. -/
structure SameMemory (s t : State) : Prop where
  cells : ∀ a, t.rbMem.readAt a = s.rbMem.readAt a

/-- The ring indices are unchanged. -/
structure SameIndices (s t : State) : Prop where
  rbIn : t.rbIn = s.rbIn
  rbOut : t.rbOut = s.rbOut

/-- The transmit engine and its latches are unchanged. -/
structure SameEngine (s t : State) : Prop where
  txCount : t.txCount = s.txCount
  txSr : t.txSr = s.txSr
  tandyClk : t.tandyClk = s.tandyClk
  tandyData : t.tandyData = s.tandyData
  serOut : t.serOut = s.serOut

/-- The parameters, the split-take point and the input queue are unchanged. -/
structure SameInputs (s t : State) : Prop where
  params : t.params = s.params
  takePending : t.takePending = s.takePending
  events : t.events = s.events

/-- Only RX's state may differ (R46, R48): `rx_win` and the mailbox. -/
structure OnlyReceiver (s t : State) : Prop where
  history : SameHistory s t
  modifiers : SameModifiers s t
  memory : SameMemory s t
  indices : SameIndices s t
  engine : SameEngine s t
  inputs : SameInputs s t

/-- Only MAIN's state may differ (R46, R48): the mailbox flag, the history, ModifierState, `rb_mem`, `rb_in` and, for the
split take, its own point. -/
structure OnlyTranslator (s t : State) : Prop where
  receiver : SameReceiver s t
  mbxByte : t.mbxByte = s.mbxByte
  rbOut : t.rbOut = s.rbOut
  engine : SameEngine s t
  params : t.params = s.params
  events : t.events = s.events

/-- Only TX's state may differ (R46, R48): the engine, its latches and `rb_out`. -/
structure OnlyEngine (s t : State) : Prop where
  receiver : SameReceiver s t
  mailbox : SameMailbox s t
  history : SameHistory s t
  modifiers : SameModifiers s t
  memory : SameMemory s t
  rbIn : t.rbIn = s.rbIn
  inputs : SameInputs s t

/-! ### The invariant -/

/-- The number of shifts `tx_sr` has had when the counter stands at a value: all eight in Idle (R21, R157). -/
def shiftsDone (c : TickCount) : Nat := if c.val = 0 then 8 else (c.val - 4) / 4

/-- The level of `ser_out` between ticks, where the counter and the bit in `tx_sr[0]` determine it (R79, R165): after the
last tick of a data bit-time the bit has left `tx_sr`. -/
def serLevel (c : TickCount) (bit : Bool) : Option Bool :=
  if c.val = 0 then some true
  else if c.val ≤ 4 then some false
  else if 37 ≤ c.val then some true
  else if c.val % 4 = 0 then none
  else some bit

/-- The levels `(tandy_clk, tandy_data)` between ticks under the default `TANDY_WAVE` (R162, last column). -/
def defaultLines (c : TickCount) (bit : Bool) : Bool × Bool :=
  if c.val = 0 then (true, true)
  else if c.val ≤ 4 then (true, false)
  else if c.val = 37 then (true, false)
  else if c.val = 38 then (false, false)
  else if c.val = 39 then (false, true)
  else if c.val % 4 = 0 then (true, false)
  else if c.val % 4 = 2 then (false, bit)
  else (true, bit)

/-- The invariant of the block between operations. -/
structure Inv (s : State) : Prop where
  /-- `rb_mem` has its canonical form (R23). -/
  memory : Memory.wf s.rbMem
  /-- The parameters are admissible (R70 to R72, R163). -/
  params : s.params.wf = true
  /-- No start bit rests at the low end: a window whose bit 0 is set is emptied in the same operation (R90). -/
  receiver : s.rxWin.getLsbD 0 = false
  /-- The split take has an intermediate point only where the parameter asks for it (R219). -/
  take : s.params.mbxSplitTake = false → s.takePending = false
  /-- `tx_sr` holds what is left of the byte: zeros above the bits still to come, 0x00 in Idle (R21). -/
  shift : s.txSr.toNat < 2 ^ (8 - shiftsDone s.txCount)
  /-- `ser_out` stands at the level its slot gives it (R165). -/
  serial : ∀ l, serLevel s.txCount (txBit s) = some l → s.serOut = l
  /-- Under the default table the legacy lines stand at the levels of R162, in Idle at the idle levels. -/
  legacy : s.params.wave = TandyWave.default → (s.tandyClk, s.tandyData) = defaultLines s.txCount (txBit s)

end Sys2Proof.Machine
end

