-- ==== Sys2Proof/WellFormed.lean ====
section
/-! DEFINITION. When an operation is the one its word selects: the conditions of R73 and R78 on its operands under a
decode context. An operation without a condition is well formed with every operand (its operands' types admit nothing
else); an ill-formed one is refused by `Instr.wellFormed`. -/

namespace Sys2Proof

/-- The byte is no prefix (R73 lines 1 and 2 come first). -/
def notPrefix (b : Byte) : Bool := decide (b ≠ pfxEscape) && decide (b ≠ pfxRelease)

/-- The key is none of the modifier codes (R73 lines 4 and 8). -/
def notModifier (m : ModCodes) (k : Key) : Bool := !m.toList.contains k

/-- A modifier's release word selects that modifier: its byte is no prefix and the seven codes are distinct (R72). -/
def releasable (m : ModCodes) (k : Key) : Bool := m.distinct && notPrefix (keyByte k)

/-- A modifier's press word selects that modifier: besides, its code is not in the table (R73 line 7). -/
def pressable (p : Params) (k : Key) : Bool :=
  releasable p.mods k && (lookup p.table.keymap k).isNone

/-- The key is found at an index in the function-key range while `alt` is selected (R73 line 6). -/
def twoByteCase (c : DecodeContext) (k : Key) : Bool :=
  (lookup c.params.table.keymap k).any (fun (i, _) => inFkeyRange c.params.table i) && c.altSelected

/-- The operation is the one the decoder selects for its word in the context. -/
def Instr.wellFormed (c : DecodeContext) (i : Instr) : Bool :=
  match i with
  | .rxShift _ _ _ => true
  | .rxAccept _ _ => true
  | .rxReject _ _ => true
  | .xlIdle => true
  | .xlPfxE0 _ _ => true
  | .xlPfxF0 _ _ => true
  | .xlRelLshift => releasable c.params.mods c.params.mods.lshift
  | .xlRelRshift => releasable c.params.mods c.params.mods.rshift
  | .xlRelLctrl => releasable c.params.mods c.params.mods.lctrl
  | .xlRelRctrl => releasable c.params.mods c.params.mods.rctrl
  | .xlRelLalt => releasable c.params.mods c.params.mods.lalt
  | .xlRelRalt => releasable c.params.mods c.params.mods.ralt
  | .xlRelCaps => releasable c.params.mods c.params.mods.caps
  | .xlRelOther esc byte => notPrefix byte && notModifier c.params.mods (lookupKey esc byte)
  | .xlPrsKey esc byte =>
      notPrefix byte && (lookup c.params.table.keymap (lookupKey esc byte)).isSome
        && !twoByteCase c (lookupKey esc byte)
  | .xlPrsFkeyAlt esc byte => notPrefix byte && twoByteCase c (lookupKey esc byte)
  | .xlPrsLshift => pressable c.params c.params.mods.lshift
  | .xlPrsRshift => pressable c.params c.params.mods.rshift
  | .xlPrsLctrl => pressable c.params c.params.mods.lctrl
  | .xlPrsRctrl => pressable c.params c.params.mods.rctrl
  | .xlPrsLalt => pressable c.params c.params.mods.lalt
  | .xlPrsRalt => pressable c.params c.params.mods.ralt
  | .xlPrsCaps => pressable c.params c.params.mods.caps
  | .xlPrsOther esc byte =>
      notPrefix byte && (lookup c.params.table.keymap (lookupKey esc byte)).isNone
        && notModifier c.params.mods (lookupKey esc byte)
  | .txIdleHold => !c.launch
  | .txStart => c.launch
  | .txStartHold _ => true
  | .txDataP0 _ => true
  | .txDataP1 _ => true
  | .txDataP2 _ => true
  | .txDataP3 _ => true
  | .txStopP0 => true
  | .txStopP1 => true
  | .txStopP2 => true
  | .txStopP3 => true
  | .mbxPut _ => true
  | .mbxTake => true
  | .rbPush _ => true
  | .rbPush2 _ _ => true
  | .rbPop => true
  | .rxEdge _ => true
  | .xlPoll => true
  | .txTick _ => true

end Sys2Proof
end

