-- ==== Sys2Proof/Certificates/Slice0/Obligations.lean ====
section
/-! DEFINITION. The statements for the provers. Each formalises rules of spec/ named in its docstring; where a clause rests
on a choice of the spec (D<n>) or of this model (log <n>), the docstring or the title in OBLIGATIONS.json says so. Rules that
carry a decision of the spec are followed as written (log 7), and every statement that rests on one has the basis 'derived'.
Steps take their events from the model's queue (log 1), and markers are read from the model's trace (log 8). -/

open Sys2Proof Sys2Proof.Machine

/-! ## Encoding -/

/-- R62, R66, R73, R77, R78, R83: decode of encode is the instruction, for every operation that is the one its word selects
in the context, with every operand. -/
def Obligations.DecodeOfEncodeIsTheInstruction : Prop :=
  ∀ (c : DecodeContext) (i : Instr) (w : CodeWord),
    i.wellFormed c = true → encode c.params i = some w → decode c w = .ok i

/-- R64, R73, R78: every word that decodes at all decodes to a well-formed operation whose encoding is that word, where the
seven modifier codes are distinct (R72). -/
def Obligations.EncodeOfDecodeIsTheWord : Prop :=
  ∀ (c : DecodeContext) (i : Instr) (w : CodeWord),
    c.params.mods.distinct = true → decode c w = .ok i → i.wellFormed c = true ∧ encode c.params i = some w

/-- R64, R73 ("All 1024 words decode"), R78, R81(d): every window and every XKEY word decodes; a slot word decodes exactly
below 40 and is refused by name from 40 on; a character decodes exactly if it is one of the five of R83. -/
def Obligations.OnlyUnreachableSlotsAndStrayCharactersAreRefused : Prop :=
  ∀ (c : DecodeContext) (w : CodeWord),
    match w with
    | .ps2win _ => ∃ i, decode c w = .ok i
    | .xkey _ => ∃ i, decode c w = .ok i
    | .txslot n => (n.toNat < 40 → ∃ i, decode c w = .ok i) ∧ (40 ≤ n.toNat → decode c w = .error (.unreachableSlot n.toNat))
    | .line b =>
        (b ∈ [0x30#8, 0x31#8, 0x50#8, 0x74#8, 0x54#8] → ∃ i, decode c w = .ok i) ∧
        (b ∉ [0x30#8, 0x31#8, 0x50#8, 0x74#8, 0x54#8] → decode c w = .error (.notATraceLine b))

/-- Words written out from the encodings of R64, R73, R78, R83, each decoding to its row of `opcode_table.json`. -/
def Obligations.WrittenOutWordsDecode : Prop :=
  decode tableContext (.ps2win 0b01111000110#11) = .ok (.rxShift false true 0b11100011#8) ∧
  decode tableContext (.ps2win 0b01111000111#11) = .ok (.rxAccept true 0b11100011#8) ∧
  decode tableContext (.ps2win 0b11111000111#11) = .ok (.rxReject true 0b11100011#8) ∧
  decode tableContext (.xkey 0b0011100000#10) = .ok (.xlPfxE0 false false) ∧
  decode tableContext (.xkey 0b1100010100#10) = .ok .xlRelRctrl ∧
  decode tableContext (.xkey 0b0000011100#10) = .ok (.xlPrsKey false 0x1C#8) ∧
  decode { tableContext with altSelected := true } (.xkey 0b0010000011#10) = .ok (.xlPrsFkeyAlt false 0x83#8) ∧
  decode tableContext (.xkey 0b0001011000#10) = .ok .xlPrsCaps ∧
  decode tableContext (.xkey 0b0010101010#10) = .ok (.xlPrsOther false 0xAA#8) ∧
  decode tableContext (.txslot 0b000010#6) = .ok (.txStartHold 1) ∧
  decode tableContext (.txslot 0b011101#6) = .ok (.txDataP1 6) ∧
  decode tableContext (.txslot 0b100111#6) = .ok .txStopP3 ∧
  decode tableContext (.line 0b01010100#8) = .ok (.txTick true)

/-! ## The step -/

/-- R83, R190, R191: a step takes the next event from the queue and runs the operation it triggers, saving nothing; the event
of a trace character is the one R83 gives it. Where nothing is queued nothing changes (the model's choice, log 1). -/
def Obligations.StepRunsTheNextEvent : Prop :=
  (∀ (s : State) (e : Event) (rest : List Event), s.events = e :: rest →
    step s = exec (eventInstr e) { s with events := rest }) ∧
  (∀ s : State, s.events = [] → step s = .next s) ∧
  (∀ (c : DecodeContext) (b : Byte) (e : Event), decodeLine b = .ok e → decode c (.line b) = .ok (eventInstr e))

/-- R60, R64, R73, R78 with R90, R110, R150: each step runs the case its agent's word decodes to. The word of an edge is the
window after the shift, the word of a poll is formed from the byte taken and the history, the word of a tick is `tx_count`;
with the mailbox empty no word is formed and the case is `XL_IDLE`. The take is the atomic one. -/
def Obligations.StepRunsTheDecodedCase : Prop :=
  (∀ (s : State) (d : Bool) (rest : List Event) (i : Instr), s.events = .edge d :: rest →
    decode (decodeContext s false) (.ps2win ((s.rxWin >>> 1) ||| (if d then 0x000#11 else 0x400#11))) = .ok i →
    step s = exec i { s with events := rest }) ∧
  (∀ (s : State) (rest : List Event) (i : Instr), s.events = .poll :: rest → s.params.mbxSplitTake = false →
    s.mbxReady = true → decode (decodeContext s false) (.xkey (formXkey s s.mbxByte)) = .ok i →
    step s = exec i { s with events := rest, mbxReady := false }) ∧
  (∀ (s : State) (rest : List Event), s.events = .poll :: rest → s.params.mbxSplitTake = false → s.mbxReady = false →
    step s = exec .xlIdle { s with events := rest }) ∧
  (∀ (s : State) (r : Bool) (rest : List Event) (i : Instr), s.events = .tick r :: rest →
    decode (decodeContext s r) (.txslot (BitVec.ofNat 6 s.txCount.val)) = .ok i →
    step s = exec i { s with events := rest })

/-- R180 ("Every operation is total"): every step of every state answers a next state. -/
def Obligations.EveryStepAnswersANextState : Prop :=
  ∀ s : State, ∃ t, step s = .next t

/-- R60, R73, R78: an operation that is the one its word selects in the state answers a next state; the only refusals of the
model are of rows executed where their condition fails (log 9). -/
def Obligations.EverySelectedOperationAnswersANextState : Prop :=
  ∀ (s : State) (r : Bool) (i : Instr), i.wellFormed (decodeContext s r) = true → ∃ t, exec i s = .next t

/-! ## The receiver -/

/-- R91: the shifted window is kept and nothing else changes. -/
def Obligations.RxShiftKeepsTheWindow : Prop :=
  ∀ (stop parity : Bool) (data : Byte) (s : State),
    exec (.rxShift stop parity data) s = .next { s with
      rxWin := (if stop then 0x400#11 else 0#11) ||| (if parity then 0x200#11 else 0#11) ||| (data.setWidth 11 <<< 1) }

/-- R92, R100, R63, R65: the complement of window bits 8 to 1 is delivered whatever the parity bit, a pending byte is lost with
the marker `E_MBX_OVERWRITE`, the window is emptied, nothing else changes. -/
def Obligations.RxAcceptDeliversTheByte : Prop :=
  ∀ (parity : Bool) (data : Byte) (s : State), ∃ t, exec (.rxAccept parity data) s = .next t ∧
    t.rxWin = 0#11 ∧ t.mbxByte = ~~~data ∧ t.mbxReady = true ∧ OnlyReceiver s t ∧
    t.trace = if s.mbxReady then .eMbxOverwrite s.mbxByte :: s.trace else s.trace

/-- R93, R182: nothing is delivered, the window is emptied, the marker `E_FRAME` holds the window, nothing else changes. -/
def Obligations.RxRejectDiscardsTheFrame : Prop :=
  ∀ (parity : Bool) (data : Byte) (s : State), ∃ t, exec (.rxReject parity data) s = .next t ∧
    t.rxWin = 0#11 ∧ SameMailbox s t ∧ OnlyReceiver s t ∧
    t.trace = .eFrame (0x401#11 ||| (if parity then 0x200#11 else 0#11) ||| (data.setWidth 11 <<< 1)) :: s.trace

/-- R90, read from the window before the edge: bit 1 is what reaches the low end and the new sample is what stands at the high
end. Without a start bit there the window shifts; with one, a wire-high sample delivers the complement of old bits 9 to 2 and a
wire-low one discards the frame, and the window is emptied either way. -/
def Obligations.EdgeShiftsDeliversOrDiscards : Prop :=
  ∀ (d : Bool) (s : State), ∃ t, exec (.rxEdge d) s = .next t ∧ OnlyReceiver s t ∧
    (s.rxWin.getLsbD 1 = false →
      t.rxWin = (s.rxWin >>> 1) ||| (if d then 0x000#11 else 0x400#11) ∧ SameMailbox s t ∧ t.trace = s.trace) ∧
    (s.rxWin.getLsbD 1 = true → d = true →
      t.rxWin = 0#11 ∧ t.mbxByte = ~~~(s.rxWin.extractLsb' 2 8) ∧ t.mbxReady = true ∧
      t.trace = if s.mbxReady then .eMbxOverwrite s.mbxByte :: s.trace else s.trace) ∧
    (s.rxWin.getLsbD 1 = true → d = false →
      t.rxWin = 0#11 ∧ SameMailbox s t ∧ t.trace = .eFrame ((s.rxWin >>> 1) ||| 0x400#11) :: s.trace)

/-- R97: the wire-polarity machine, `w = ~rx_win` with empty 0x7FF, is the same machine. -/
def Obligations.WirePolarityFormIsTheSameMachine : Prop :=
  ∀ (d : Bool) (s : State), ∃ t, exec (.rxEdge d) s = .next t ∧
    (let w' := (~~~s.rxWin >>> 1) ||| (if d then 0x400#11 else 0x000#11)
     (w'.getLsbD 0 = true → ~~~t.rxWin = w' ∧ SameMailbox s t) ∧
     (w'.getLsbD 0 = false → ~~~t.rxWin = 0x7FF#11 ∧
       (w'.getLsbD 10 = true → t.mbxByte = w'.extractLsb' 1 8 ∧ t.mbxReady = true) ∧
       (w'.getLsbD 10 = false → SameMailbox s t)))

/-- R94: from an empty window, the eleven edges of a frame with correct start and stop, for every byte and either parity level,
deliver exactly that byte and leave the window empty; nothing outside the receiver changes. -/
def Obligations.WellFormedFrameIsDelivered : Prop :=
  ∀ (b : Byte) (parity : Bool) (rest : List Event) (s : State),
    s.rxWin = 0#11 → s.events = frameEvents false b parity true ++ rest →
    ∃ t, Sys2Proof.core.run 11 s = .next t ∧ t.rxWin = 0#11 ∧ t.mbxByte = b ∧ t.mbxReady = true ∧
      t.events = rest ∧ SameHistory s t ∧ SameModifiers s t ∧ SameMemory s t ∧ SameIndices s t ∧ SameEngine s t

/-- R95, first part: a frame with a correct start and a wrong stop makes no mailbox update and leaves the window empty, and the
well-formed frame right after it is delivered. -/
def Obligations.FrameAfterAWrongStopIsDelivered : Prop :=
  ∀ (b b' : Byte) (parity parity' : Bool) (rest : List Event) (s : State),
    s.rxWin = 0#11 →
    s.events = frameEvents false b parity false ++ (frameEvents false b' parity' true ++ rest) →
    (∃ t, Sys2Proof.core.run 11 s = .next t ∧ t.rxWin = 0#11 ∧ SameMailbox s t) ∧
    (∃ u, Sys2Proof.core.run 22 s = .next u ∧ u.rxWin = 0#11 ∧ u.mbxByte = b' ∧ u.mbxReady = true ∧ u.events = rest)

/-! ## The mailbox -/

/-- R100: the writes of `MBX_PUT` are unconditional; a pending byte is lost with the marker `E_MBX_OVERWRITE` of the old byte. -/
def Obligations.MailboxPutOverwrites : Prop :=
  ∀ (v : Byte) (s : State), exec (.mbxPut v) s = .next { s with
    mbxByte := v, mbxReady := true,
    trace := if s.mbxReady then .eMbxOverwrite s.mbxByte :: s.trace else s.trace }

/-- R101: the take returns the byte and clears the flag when it is set, and returns none and changes nothing when it is not; the
byte itself stays. The result of a take executed on its own is the marker at the head of the trace (log 8). -/
def Obligations.MailboxTakeReturnsAndClears : Prop :=
  ∀ s : State, exec .mbxTake s = .next { s with
    mbxReady := false,
    trace := .resultByte (if s.mbxReady then some s.mbxByte else none) :: s.trace }

/-! ## The translator -/

/-- R112, R113: a word whose byte is a prefix, whatever its flag bits, decodes to that prefix's case, and the case changes
nothing but the history. `XL_IDLE` (R110, no word) changes nothing at all. -/
def Obligations.PrefixBytesAreOnlyRecorded : Prop :=
  (∀ (c : DecodeContext) (w : XkeyWord),
    (w &&& 0x0FF#10 = 0x0E0#10 → ∃ rel esc, decode c (.xkey w) = .ok (.xlPfxE0 rel esc)) ∧
    (w &&& 0x0FF#10 = 0x0F0#10 → ∃ rel esc, decode c (.xkey w) = .ok (.xlPfxF0 rel esc))) ∧
  ∀ (rel esc : Bool) (s : State),
    exec .xlIdle s = .next s ∧
    exec (.xlPfxE0 rel esc) s = .next { s with hist2 := s.hist1, hist1 := 0xE0#8 } ∧
    exec (.xlPfxF0 rel esc) s = .next { s with hist2 := s.hist1, hist1 := 0xF0#8 }

/-- R114, R116: with the codes 0x012 and 0x014 and the seven codes distinct (R72), the release words 0x212 and 0x214 decode to
`XL_REL_LSHIFT` and `XL_REL_LCTRL`, which clear bit 0 of their field and change nothing else but the history (R134). -/
def Obligations.LeftShiftAndLeftCtrlReleases : Prop :=
  (∀ c : DecodeContext, c.params.mods.lshift = 0x012#9 → c.params.mods.lctrl = 0x014#9 → c.params.mods.distinct = true →
    decode c (.xkey 0x212#10) = .ok .xlRelLshift ∧ decode c (.xkey 0x214#10) = .ok .xlRelLctrl) ∧
  (∀ s : State,
    exec .xlRelLshift s = .next { s with
      modShift := s.modShift &&& 0b10#2, hist2 := s.hist1, hist1 := s.params.mods.lshift.setWidth 8 } ∧
    exec .xlRelLctrl s = .next { s with
      modCtrl := s.modCtrl &&& 0b10#2, hist2 := s.hist1, hist1 := s.params.mods.lctrl.setWidth 8 })

/-- R115, R117 to R120, R121 (XL_REL_OTHER): the other releases clear their own bit (caps-lock: the handled bit alone) and change nothing else
but the history; a release of any other key changes the history alone. The five codes are the spec's general-knowledge
defaults (D6, log 4) and enter here as parameters. -/
def Obligations.OtherReleasesClearTheirOwnBit : Prop :=
  ∀ (esc : Bool) (b : Byte) (s : State),
    exec .xlRelRshift s = .next { s with
      modShift := s.modShift &&& 0b01#2, hist2 := s.hist1, hist1 := s.params.mods.rshift.setWidth 8 } ∧
    exec .xlRelRctrl s = .next { s with
      modCtrl := s.modCtrl &&& 0b01#2, hist2 := s.hist1, hist1 := s.params.mods.rctrl.setWidth 8 } ∧
    exec .xlRelLalt s = .next { s with
      modAlt := s.modAlt &&& 0b10#2, hist2 := s.hist1, hist1 := s.params.mods.lalt.setWidth 8 } ∧
    exec .xlRelRalt s = .next { s with
      modAlt := s.modAlt &&& 0b01#2, hist2 := s.hist1, hist1 := s.params.mods.ralt.setWidth 8 } ∧
    exec .xlRelCaps s = .next { s with
      modCaps := s.modCaps &&& 0b01#2, hist2 := s.hist1, hist1 := s.params.mods.caps.setWidth 8 } ∧
    exec (.xlRelOther esc b) s = .next { s with hist2 := s.hist1, hist1 := b }

/-- R126, R128: with the codes 0x012 and 0x014, the seven codes distinct (R72) and a table that lacks the two, the press words
0x012 and 0x014 decode to `XL_PRS_LSHIFT` and `XL_PRS_LCTRL`, which set bit 0 of their field and change nothing else but the history. -/
def Obligations.LeftShiftAndLeftCtrlPresses : Prop :=
  (∀ c : DecodeContext, c.params.mods.lshift = 0x012#9 → c.params.mods.lctrl = 0x014#9 → c.params.mods.distinct = true →
    (∀ e ∈ c.params.table.keymap, e.code ≠ 0x012#11 ∧ e.code ≠ 0x014#11) →
    decode c (.xkey 0x012#10) = .ok .xlPrsLshift ∧ decode c (.xkey 0x014#10) = .ok .xlPrsLctrl) ∧
  (∀ s : State,
    exec .xlPrsLshift s = .next { s with
      modShift := s.modShift ||| 0b01#2, hist2 := s.hist1, hist1 := s.params.mods.lshift.setWidth 8 } ∧
    exec .xlPrsLctrl s = .next { s with
      modCtrl := s.modCtrl ||| 0b01#2, hist2 := s.hist1, hist1 := s.params.mods.lctrl.setWidth 8 })

/-- R127, R129 to R131: the other presses of a shift, ctrl or alt key set their own bit and change nothing else but the history. -/
def Obligations.OtherPressesSetTheirOwnBit : Prop :=
  ∀ s : State,
    exec .xlPrsRshift s = .next { s with
      modShift := s.modShift ||| 0b10#2, hist2 := s.hist1, hist1 := s.params.mods.rshift.setWidth 8 } ∧
    exec .xlPrsRctrl s = .next { s with
      modCtrl := s.modCtrl ||| 0b10#2, hist2 := s.hist1, hist1 := s.params.mods.rctrl.setWidth 8 } ∧
    exec .xlPrsLalt s = .next { s with
      modAlt := s.modAlt ||| 0b01#2, hist2 := s.hist1, hist1 := s.params.mods.lalt.setWidth 8 } ∧
    exec .xlPrsRalt s = .next { s with
      modAlt := s.modAlt ||| 0b10#2, hist2 := s.hist1, hist1 := s.params.mods.ralt.setWidth 8 }

/-- R132: the four transitions of a caps-lock press, `0b00 -> 0b11`, `0b01 -> 0b10`, and none while handled is set; nothing else
but the history changes. -/
def Obligations.CapsPressTogglesUnlessHandled : Prop :=
  ∀ s : State, ∃ caps, exec .xlPrsCaps s = .next { s with
      modCaps := caps, hist2 := s.hist1, hist1 := s.params.mods.caps.setWidth 8 } ∧
    (s.modCaps = 0b00#2 → caps = 0b11#2) ∧ (s.modCaps = 0b01#2 → caps = 0b10#2) ∧
    (s.modCaps = 0b10#2 → caps = 0b10#2) ∧ (s.modCaps = 0b11#2 → caps = 0b11#2)

/-- R132, last quotation: any number of caps-lock presses without a release between them toggles the active bit once at most:
after the first, further presses leave `mod_caps` as it is. -/
def Obligations.HeldCapsLockTogglesOnce : Prop :=
  ∀ (n : Nat) (s : State), ∃ t u,
    exec .xlPrsCaps s = .next t ∧
    (fun (o : Host.Outcome State Fault Refusal) => match o with
      | .next v => exec .xlPrsCaps v
      | o => o)^[n] (.next t) = .next u ∧ u.modCaps = t.modCaps

/-- R133 and R185, the name of the marker by D19 and its place in the trace by log 8: a press word whose key is neither in the table nor one of the seven codes, and whose byte is no prefix,
decodes to `XL_PRS_OTHER`, which raises the marker `E_UNKNOWN_KEY` of its key and changes nothing but the history. -/
def Obligations.UnknownPressIsSilentlyIgnored : Prop :=
  (∀ (c : DecodeContext) (w : XkeyWord), w.getLsbD 9 = false → w.setWidth 8 ≠ 0xE0#8 → w.setWidth 8 ≠ 0xF0#8 →
    (∀ e ∈ c.params.table.keymap, e.code ≠ (w.setWidth 9).setWidth 11) → w.setWidth 9 ∉ c.params.mods.toList →
    decode c (.xkey w) = .ok (.xlPrsOther (w.getLsbD 8) (w.setWidth 8))) ∧
  ∀ (esc : Bool) (b : Byte) (s : State),
    exec (.xlPrsOther esc b) s = .next { s with
      hist2 := s.hist1, hist1 := b,
      trace := .eUnknownKey ((if esc then 0x100#9 else 0#9) ||| b.setWidth 9) :: s.trace }

/-- R111: the three results of `XL_CLASSIFY`, as fields of the word and the key formed from the history and the byte. For a
prefix byte R66 says that the two flags are not computed; that the word holds them there too is the model's choice (log 12). -/
def Obligations.ClassificationReadsTheHistory : Prop :=
  ∀ (b : Byte) (s : State),
    ((formXkey s b).getLsbD 9 = true ↔ s.hist1 = 0xF0#8) ∧
    ((formXkey s b).getLsbD 8 = true ↔ s.hist1 = 0xE0#8 ∨ (s.hist1 = 0xF0#8 ∧ s.hist2 = 0xE0#8)) ∧
    (formXkey s b).setWidth 8 = b ∧
    formKey s b = (formXkey s b).setWidth 9

/-- R122: `LOOKUP` returns the least index whose code equals the key in the whole 11-bit field, or none. -/
def Obligations.LookupReturnsTheLeastIndex : Prop :=
  ∀ (keymap : List KeyEntry) (key : Key),
    (∀ i e, lookup keymap key = some (i, e) ↔
      keymap[i]? = some e ∧ e.code = key.setWidth 11 ∧ ∀ j f, j < i → keymap[j]? = some f → f.code ≠ key.setWidth 11) ∧
    (lookup keymap key = none ↔ ∀ e ∈ keymap, e.code ≠ key.setWidth 11)

/-- R123: the truth table of `SELECT`, ctrl before alt before shift, caps-lock swapping `shift` and `none` for letters alone,
and the byte of the column chosen. -/
def Obligations.ColumnSelectionFollowsTheTruthTable : Prop :=
  ∀ (i : Nat) (s : State),
    (s.modCtrl ≠ 0#2 → select s i = .ctrl) ∧
    (s.modCtrl = 0#2 → s.modAlt ≠ 0#2 → select s i = .alt) ∧
    (s.modCtrl = 0#2 → s.modAlt = 0#2 → s.modShift ≠ 0#2 →
      (¬ (i < 26 ∧ s.modCaps.getLsbD 0 = true) → select s i = .shift) ∧
      (i < 26 ∧ s.modCaps.getLsbD 0 = true → select s i = .plain)) ∧
    (s.modCtrl = 0#2 → s.modAlt = 0#2 → s.modShift = 0#2 →
      (¬ (i < 26 ∧ s.modCaps.getLsbD 0 = true) → select s i = .plain) ∧
      (i < 26 ∧ s.modCaps.getLsbD 0 = true → select s i = .shift)) ∧
    (∀ e : KeyEntry, columnByte e .ctrl = e.ctrl ∧ columnByte e .shift = e.shift ∧ columnByte e .alt = e.alt ∧
      columnByte e .plain = e.plain)

/-- R124, R140, R184: a found key pushes the byte of the selected column into `rb_mem[rb_in]` and nothing else changes but the
history, every other cell reads as before; with fifteen bytes queued the byte is dropped with the marker `E_RB_FULL` and the ring
is untouched. -/
def Obligations.FoundKeyPushesTheSelectedColumn : Prop :=
  ∀ (esc : Bool) (b : Byte) (i : Nat) (e : KeyEntry) (s : State),
    lookup s.params.table.keymap (lookupKey esc b) = some (i, e) →
    ∃ t, exec (.xlPrsKey esc b) s = .next t ∧
      t.hist2 = s.hist1 ∧ t.hist1 = b ∧
      SameReceiver s t ∧ SameMailbox s t ∧ SameModifiers s t ∧ SameEngine s t ∧ SameInputs s t ∧ t.rbOut = s.rbOut ∧
      (let v := match select s i with
        | .ctrl => e.ctrl
        | .shift => e.shift
        | .alt => e.alt
        | .plain => e.plain
       (s.rbIn + 1#4 ≠ s.rbOut →
        t.rbIn = s.rbIn + 1#4 ∧ t.rbMem.readAt s.rbIn.toNat = v ∧
        (∀ a, a ≠ s.rbIn.toNat → t.rbMem.readAt a = s.rbMem.readAt a) ∧ t.trace = s.trace) ∧
       (s.rbIn + 1#4 = s.rbOut →
        t.rbIn = s.rbIn ∧ SameMemory s t ∧ t.trace = .eRbFull [v] :: s.trace))

/-- R125, R141, R76: a function key found while `alt` is selected pushes its `alt` byte and the digit `0x30 + offset` into two
consecutive cells with one advance of `rb_in` by two, or, with fewer than two free slots, neither; nothing else changes but the
history. -/
def Obligations.AltFunctionKeyPushesBothBytesOrNeither : Prop :=
  ∀ (esc : Bool) (b : Byte) (i : Nat) (e : KeyEntry) (s : State),
    lookup s.params.table.keymap (lookupKey esc b) = some (i, e) →
    s.params.table.fkeyBase ≤ i → i < s.params.table.fkeyBase + 10 →
    ∃ t, exec (.xlPrsFkeyAlt esc b) s = .next t ∧
      t.hist2 = s.hist1 ∧ t.hist1 = b ∧
      SameReceiver s t ∧ SameMailbox s t ∧ SameModifiers s t ∧ SameEngine s t ∧ SameInputs s t ∧ t.rbOut = s.rbOut ∧
      (let digit := BitVec.ofNat 8 (0x30 + (i - s.params.table.fkeyBase))
       ((s.rbIn - s.rbOut).toNat ≤ 13 →
        t.rbIn = s.rbIn + 2#4 ∧ t.rbMem.readAt s.rbIn.toNat = e.alt ∧ t.rbMem.readAt (s.rbIn + 1#4).toNat = digit ∧
        (∀ a, a ≠ s.rbIn.toNat → a ≠ (s.rbIn + 1#4).toNat → t.rbMem.readAt a = s.rbMem.readAt a) ∧ t.trace = s.trace) ∧
       (14 ≤ (s.rbIn - s.rbOut).toNat →
        t.rbIn = s.rbIn ∧ SameMemory s t ∧ t.trace = .eRbFull [e.alt, digit] :: s.trace))

/-- R110, R101, R134: a poll with the atomic take answers a next state; with the mailbox empty nothing at all changes; with a byte
pending the flag is cleared, the byte stays in `mbx_byte` and enters the history, and nothing outside MAIN's state changes. -/
def Obligations.PollConsumesThePendingByte : Prop :=
  ∀ s : State, s.params.mbxSplitTake = false →
    (s.mbxReady = false → exec .xlPoll s = .next s) ∧
    (s.mbxReady = true → ∃ t, exec .xlPoll s = .next t ∧ t.mbxReady = false ∧ t.hist1 = s.mbxByte ∧ t.hist2 = s.hist1 ∧
      t.takePending = s.takePending ∧ OnlyTranslator s t)

/-- R110 to R133 against R73: a poll that takes a byte performs the case the decoder selects for the word formed from it. The left
side is R110's pseudocode, the right side the decode map of R73 followed by that case's own rule. -/
def Obligations.PollRunsTheDecodedCase : Prop :=
  ∀ (r : Bool) (s : State), s.params.mbxSplitTake = false → s.mbxReady = true →
    exec .xlPoll s = exec (decodeXkey (decodeContext s r) (formXkey s s.mbxByte)) { s with mbxReady := false }

/-- R136(d), R121: a poll that consumes a byte after 0xF0 never pushes: the ring is untouched and no `E_RB_FULL` is raised. -/
def Obligations.ReleasesNeverPush : Prop :=
  ∀ s : State, s.params.mbxSplitTake = false → s.mbxReady = true → s.hist1 = 0xF0#8 →
    ∃ t, exec .xlPoll s = .next t ∧ SameMemory s t ∧ SameIndices s t ∧ t.trace = s.trace

/-- R136(e), R124: a poll changes ModifierState only where the key of the consumed byte is one of the seven modifier codes and,
on a press, is not in the table. -/
def Obligations.ModifiersChangeOnlyOnModifierKeys : Prop :=
  ∀ s t : State, exec .xlPoll s = .next t → ¬ SameModifiers s t →
    formKey s s.mbxByte ∈ s.params.mods.toList ∧
    (s.hist1 ≠ 0xF0#8 → lookup s.params.table.keymap (formKey s s.mbxByte) = none)

/-- R136(a): with no modifier active and room in the ring, the press of a key in the table appends exactly its `none` column to
the queue. -/
def Obligations.PlainPressEnqueuesTheNoneColumn : Prop :=
  ∀ (s : State) (i : Nat) (e : KeyEntry), s.params.mbxSplitTake = false → s.mbxReady = true →
    s.mbxByte ≠ 0xE0#8 → s.mbxByte ≠ 0xF0#8 → s.hist1 ≠ 0xF0#8 →
    lookup s.params.table.keymap (formKey s s.mbxByte) = some (i, e) →
    s.modShift = 0#2 → s.modCtrl = 0#2 → s.modAlt = 0#2 → s.modCaps.getLsbD 0 = false → (queue s).length < 15 →
    ∃ t, exec .xlPoll s = .next t ∧ queue t = queue s ++ [e.plain]

/-- R136(c), R70, R125: with alt active, ctrl not, and two free slots, the press of a function key of a well-formed table appends
exactly the sentinel and the digit of its place in the range. -/
def Obligations.AltFunctionKeyEnqueuesSentinelAndDigit : Prop :=
  ∀ (s : State) (d : Nat) (e : KeyEntry), s.params.mbxSplitTake = false → s.params.table.wf s.params.mods = true → s.mbxReady = true →
    s.hist1 ≠ 0xF0#8 → d < 10 →
    lookup s.params.table.keymap (formKey s s.mbxByte) = some (s.params.table.fkeyBase + d, e) →
    s.mbxByte ≠ 0xE0#8 → s.mbxByte ≠ 0xF0#8 →
    s.modCtrl = 0#2 → s.modAlt ≠ 0#2 → (queue s).length ≤ 13 →
    ∃ t, exec .xlPoll s = .next t ∧ queue t = queue s ++ [s.params.table.fkeySentinel, BitVec.ofNat 8 (0x30 + d)]

/-! ## The split take (R219) -/

/-- R219, last sentence: where no other operation stands between T1 and T2, the two steps of the split take end as the atomic take
does. -/
def Obligations.SplitTakeInOnePieceIsTheAtomicTake : Prop :=
  ∀ s : State, s.params.mbxSplitTake = true → s.takePending = false → s.mbxReady = true →
    ∃ t u v, exec .xlPoll s = .next t ∧ t = { s with mbxReady := false, takePending := true } ∧
      exec .xlPoll t = .next u ∧
      exec .xlPoll { s with params := { s.params with mbxSplitTake := false } } = .next v ∧
      u = { v with params := s.params }

/-- R219: where a frame is accepted between T1 and T2, T2 reads the new byte, the old one is lost without a trace of it, and the
flag is set again, so the next T1 takes the same new byte a second time. -/
def Obligations.SplitTakeCanDeliverAByteTwice : Prop :=
  ∀ (parity : Bool) (data : Byte) (s : State), s.params.mbxSplitTake = true → s.takePending = false → s.mbxReady = true →
    ∃ t u v w x, exec .xlPoll s = .next t ∧ exec (.rxAccept parity data) t = .next u ∧ u.trace = s.trace ∧
      exec .xlPoll u = .next v ∧ v.hist1 = ~~~data ∧ v.mbxReady = true ∧
      exec .xlPoll v = .next w ∧ exec .xlPoll w = .next x ∧ x.hist1 = ~~~data ∧ x.hist2 = ~~~data ∧ x.mbxReady = false

/-! ## The ring buffer -/

/-- R140: `RB_PUSH` fails exactly when fifteen bytes are queued and then changes nothing; otherwise it writes the one cell at
`rb_in` and advances `rb_in` modulo 16. Its result, executed on its own, heads the trace (log 8). -/
def Obligations.RingPushWritesOneCell : Prop :=
  ∀ (v : Byte) (s : State),
    (s.rbIn + 1#4 = s.rbOut → exec (.rbPush v) s = .next { s with trace := .resultBool false :: s.trace }) ∧
    (s.rbIn + 1#4 ≠ s.rbOut → ∃ m,
      exec (.rbPush v) s = .next { s with rbMem := m, rbIn := s.rbIn + 1#4, trace := .resultBool true :: s.trace } ∧
      m.readAt s.rbIn.toNat = v ∧ ∀ a, a ≠ s.rbIn.toNat → m.readAt a = s.rbMem.readAt a)

/-- R141, R52: `RB_PUSH2` fails exactly when fewer than two slots are free and then changes nothing; otherwise it writes two
consecutive cells and advances `rb_in` once by two. -/
def Obligations.RingPushTwoWritesBothOrNeither : Prop :=
  ∀ (v1 v2 : Byte) (s : State),
    (14 ≤ (s.rbIn - s.rbOut).toNat → exec (.rbPush2 v1 v2) s = .next { s with trace := .resultBool false :: s.trace }) ∧
    ((s.rbIn - s.rbOut).toNat < 14 → ∃ m,
      exec (.rbPush2 v1 v2) s = .next { s with rbMem := m, rbIn := s.rbIn + 2#4, trace := .resultBool true :: s.trace } ∧
      m.readAt s.rbIn.toNat = v1 ∧ m.readAt (s.rbIn + 1#4).toNat = v2 ∧
      ∀ a, a ≠ s.rbIn.toNat → a ≠ (s.rbIn + 1#4).toNat → m.readAt a = s.rbMem.readAt a)

/-- R142: `RB_POP` returns none and changes nothing on an empty ring; otherwise it returns the byte at `rb_out` and advances
`rb_out` modulo 16; the memory is never written. -/
def Obligations.RingPopReadsTheOldestCell : Prop :=
  ∀ s : State,
    (s.rbIn = s.rbOut → exec .rbPop s = .next { s with trace := .resultByte none :: s.trace }) ∧
    (s.rbIn ≠ s.rbOut → exec .rbPop s = .next { s with
      rbOut := s.rbOut + 1#4, trace := .resultByte (some (s.rbMem.readAt s.rbOut.toNat)) :: s.trace })

/-- R143, R144: the ring refines a first-in first-out queue of at most fifteen bytes: a push appends its byte iff at most fourteen
are queued, the pair appends both bytes in order iff at most thirteen are, a pop takes the head iff there is one, and a failed
operation leaves the queue. The results of the operations are read from the model's markers (log 8). -/
def Obligations.RingRefinesABoundedQueue : Prop :=
  ∀ s : State, (queue s).length ≤ 15 ∧
    (∀ v, ∃ t, exec (.rbPush v) s = .next t ∧
      ((queue s).length ≤ 14 → t.trace.head? = some (.resultBool true) ∧ queue t = queue s ++ [v]) ∧
      (14 < (queue s).length → t.trace.head? = some (.resultBool false) ∧ queue t = queue s)) ∧
    (∀ v1 v2, ∃ t, exec (.rbPush2 v1 v2) s = .next t ∧
      ((queue s).length ≤ 13 → t.trace.head? = some (.resultBool true) ∧ queue t = queue s ++ [v1, v2]) ∧
      (13 < (queue s).length → t.trace.head? = some (.resultBool false) ∧ queue t = queue s)) ∧
    (∃ t, exec .rbPop s = .next t ∧ t.trace.head? = some (.resultByte (queue s).head?) ∧ queue t = (queue s).tail)

/-- R144, R168, R52: in one step of the block an edge leaves the queue, a tick leaves it or launches its head, and a poll appends
nothing, the one byte of a selected column, or the whole pair of a function key: never the first byte of a pair without its
second. -/
def Obligations.StepsQueueWholeEmissionsAndLaunchInOrder : Prop :=
  ∀ (s t : State), step s = .next t →
    match s.events with
    | [] => queue t = queue s
    | .edge _ :: _ => queue t = queue s
    | .tick _ :: _ => queue t = queue s ∨ (∃ v, queue s = v :: queue t ∧ t.trace = .launch v :: s.trace ∧ t.txSr = v)
    | .poll :: _ => queue t = queue s ∨
        (∃ i e, lookup s.params.table.keymap (formKey s s.mbxByte) = some (i, e) ∧
          ((queue t = queue s ++ [columnByte e (select s i)] ∧
              ¬ (inFkeyRange s.params.table i = true ∧ select s i = .alt)) ∨
            (inFkeyRange s.params.table i = true ∧ select s i = .alt ∧
              queue t = queue s ++ [e.alt, BitVec.ofNat 8 (0x30 + (i - s.params.table.fkeyBase))])))

/-! ## The transmit engine -/

/-- R151: `TX_IDLE_HOLD` writes nothing, and a tick at `tx_count = 0` with an empty ring or `dev_ready = 0` is that case. -/
def Obligations.IdleTickHolds : Prop :=
  (∀ s : State, exec .txIdleHold s = .next s) ∧
  (∀ (r : Bool) (s : State), s.txCount = 0 → (s.rbIn = s.rbOut ∨ r = false) → exec (.txTick r) s = .next s)

/-- R152, R168: `TX_START` pops the oldest byte into `tx_sr`, puts `ser_out` at the start level, applies slot 0 of the table in
force to the legacy lines and goes Active, and nothing else changes; under the default table the data line falls and the clock
holds. A tick that finds a byte and a ready device is that case. Slot 0 is given no bit (R150): an action BIT there is the
model's free value (log 15). -/
def Obligations.StartTickLaunchesTheOldestByte : Prop :=
  ∀ s : State, s.rbIn ≠ s.rbOut → ∃ clk data, exec .txStart s = .next { s with
      txSr := s.rbMem.readAt s.rbOut.toNat, rbOut := s.rbOut + 1#4, serOut := false, txCount := 1,
      tandyClk := clk, tandyData := data, trace := .launch (s.rbMem.readAt s.rbOut.toNat) :: s.trace } ∧
    clk = (s.params.wave.get 0).clk.level Config.startBit s.tandyClk ∧
    data = (s.params.wave.get 0).data.level Config.startBit s.tandyData ∧
    (s.params.wave = TandyWave.default → clk = s.tandyClk ∧ data = false) ∧
    (s.txCount = 0 → exec (.txTick true) s = exec .txStart s)

/-- R153, R155, R156, R159 to R161 with R164: the active slots that touch neither `ser_out` nor `tx_sr` apply the table in force
to the legacy lines, with the bit at `tx_sr[0]`, advance the counter (39 to 0), and change nothing else. -/
def Obligations.LineOnlySlotsApplyTheTable : Prop :=
  ∀ (h : Fin 3) (k : Fin 8) (s : State),
    let lines := fun (c next : TickCount) => { s with
      tandyClk := (s.params.wave.get c).clk.level (s.txSr.getLsbD 0) s.tandyClk
      tandyData := (s.params.wave.get c).data.level (s.txSr.getLsbD 0) s.tandyData
      txCount := next : State }
    exec (.txStartHold h) s = .next (lines ⟨h.val + 1, by omega⟩ ⟨h.val + 2, by omega⟩) ∧
    exec (.txDataP1 k) s = .next (lines ⟨4 * k.val + 5, by omega⟩ ⟨4 * k.val + 6, by omega⟩) ∧
    exec (.txDataP2 k) s = .next (lines ⟨4 * k.val + 6, by omega⟩ ⟨4 * k.val + 7, by omega⟩) ∧
    exec .txStopP1 s = .next (lines 37 38) ∧
    exec .txStopP2 s = .next (lines 38 39) ∧
    exec .txStopP3 s = .next (lines 39 0)

/-- R154, R157, R158 with R164: slot `4k` copies `tx_sr[0]` to `ser_out`, slot `4k + 3` shifts `tx_sr` right by one after the lines
are written, slot 36 puts `ser_out` at the stop level; each applies the table in force, advances the counter and changes nothing
else. -/
def Obligations.DataAndStopSlotsDriveTheSerialLine : Prop :=
  ∀ (k : Fin 8) (s : State),
    let lines := fun (c next : TickCount) => { s with
      tandyClk := (s.params.wave.get c).clk.level (s.txSr.getLsbD 0) s.tandyClk
      tandyData := (s.params.wave.get c).data.level (s.txSr.getLsbD 0) s.tandyData
      txCount := next : State }
    exec (.txDataP0 k) s = .next
      { lines ⟨4 * k.val + 4, by omega⟩ ⟨4 * k.val + 5, by omega⟩ with serOut := s.txSr.getLsbD 0 } ∧
    exec (.txDataP3 k) s = .next
      { lines ⟨4 * k.val + 7, by omega⟩ ⟨4 * k.val + 8, by omega⟩ with txSr := s.txSr >>> 1 } ∧
    exec .txStopP0 s = .next { lines 36 37 with serOut := true }

/-- R163: the default table is admissible. W1 is the type of a table; W2 to W6 are as log 18 reads them. -/
def Obligations.DefaultTableIsAdmissible : Prop :=
  TandyWave.default.admissible = true

/-- R150 against R151 to R161: a tick performs the case the slot map of R78 selects. The left side is R150's pseudocode over
`bitpos` and `phase`, the right side the case's own rule. -/
def Obligations.TickRunsTheDecodedCase : Prop :=
  ∀ (r : Bool) (s : State), exec (.txTick r) s = exec (decodeCount (decide (s.rbIn ≠ s.rbOut) && r) s.txCount) s

/-- R164, R20, R167: a tick in Idle leaves 0 or goes to 1, a tick at 1 to 38 adds one, a tick at 39 gives 0, whatever `dev_ready`
and the ring hold; and nothing outside TX's state changes. -/
def Obligations.TickAdvancesTheCounter : Prop :=
  ∀ (r : Bool) (s : State), ∃ t, exec (.txTick r) s = .next t ∧ OnlyEngine s t ∧
    (s.txCount = 0 → (t.txCount = 1 ↔ s.rbIn ≠ s.rbOut ∧ r = true) ∧ (t.txCount = 0 ∨ t.txCount = 1)) ∧
    (s.txCount ≠ 0 → t.txCount.val = (if s.txCount.val = 39 then 0 else s.txCount.val + 1) ∧
      t.rbOut = s.rbOut ∧ exec (.txTick (!r)) s = .next t)

/-- R165, R164, R167: from a tick that launches the byte `v`, the level of `ser_out` and the counter after each of the next events
1 to 40, whatever `dev_ready` is after the first: start level, eight bits least significant first for four events each, stop
level. -/
def Obligations.SerialWaveformOfAByte : Prop :=
  ∀ (s : State) (rs : List Bool) (rest : List Event), s.txCount = 0 → s.rbIn ≠ s.rbOut →
    s.events = .tick true :: (rs.map .tick ++ rest) → rs.length ≤ 39 →
    ∃ t, Sys2Proof.core.run (rs.length + 1) s = .next t ∧ t.txCount.val = (rs.length + 1) % 40 ∧ t.events = rest ∧
      t.serOut = (if rs.length + 1 ≤ 4 then false
        else if rs.length + 1 ≤ 36 then (s.rbMem.readAt s.rbOut.toNat).getLsbD (rs.length / 4 - 1)
        else true)

/-- R168, R162: under the default table (D14, log 4), along the forty events of a launched byte from idle lines, the legacy lines
after event `n` are those of R162's last column: in particular the data line stands at bit `k - 1` at both clock edges of
bit-time `k`. -/
def Obligations.LegacyWaveformUnderTheDefaultTable : Prop :=
  ∀ (s : State) (rs : List Bool) (rest : List Event), s.txCount = 0 → s.rbIn ≠ s.rbOut →
    s.params.wave = TandyWave.default → s.tandyClk = true → s.tandyData = true →
    s.events = .tick true :: (rs.map .tick ++ rest) → rs.length ≤ 39 →
    ∃ t, Sys2Proof.core.run (rs.length + 1) s = .next t ∧
      (let n := rs.length
       let bit := (s.rbMem.readAt s.rbOut.toNat).getLsbD (n / 4 - 1)
       (n < 4 → t.tandyClk = true ∧ t.tandyData = false) ∧
       (4 ≤ n → n < 36 →
         (n % 4 = 0 → t.tandyClk = true ∧ t.tandyData = bit) ∧ (n % 4 = 1 → t.tandyClk = false ∧ t.tandyData = bit) ∧
         (n % 4 = 2 → t.tandyClk = true ∧ t.tandyData = bit) ∧ (n % 4 = 3 → t.tandyClk = true ∧ t.tandyData = false)) ∧
       (n = 36 → t.tandyClk = true ∧ t.tandyData = false) ∧ (n = 37 → t.tandyClk = false ∧ t.tandyData = false) ∧
       (n = 38 → t.tandyClk = false ∧ t.tandyData = true) ∧ (n = 39 → t.tandyClk = true ∧ t.tandyData = true))

/-! ## Reset and the whole machine -/

/-- R211, the values the spec's table names (its decision D2). `mbx_byte`, `rb_mem` and the open table are free values of this
model (log 3, 5, 6) and not stated here. -/
def Obligations.ResetHasTheSpecifiedValues : Prop :=
  State.reset.rxWin = 0#11 ∧ State.reset.mbxReady = false ∧ State.reset.hist1 = 0x00#8 ∧ State.reset.hist2 = 0x00#8 ∧
  State.reset.modShift = 0#2 ∧ State.reset.modCtrl = 0#2 ∧ State.reset.modAlt = 0#2 ∧ State.reset.modCaps = 0b00#2 ∧
  State.reset.rbIn = 0#4 ∧ State.reset.rbOut = 0#4 ∧ State.reset.txCount = 0 ∧ State.reset.txSr = 0x00#8 ∧
  State.reset.serOut = true ∧ State.reset.tandyClk = true ∧ State.reset.tandyData = true ∧ quiescent State.reset

/-- R215: from the reset state a poll, a tick and a wire-high edge change nothing; the first wire-low edge enters the window. -/
def Obligations.ResetIsAFixedPointUntilTheFirstLowEdge : Prop :=
  exec .xlPoll State.reset = .next State.reset ∧ (∀ r, exec (.txTick r) State.reset = .next State.reset) ∧
  exec (.rxEdge true) State.reset = .next State.reset ∧
  exec (.rxEdge false) State.reset = .next { State.reset with rxWin := 0x400#11 }

/-- The invariant of Safety.lean holds at reset. That the parameters are admissible there is the model's choice (log 3, 4). -/
def Obligations.ResetMeetsTheInvariant : Prop :=
  Inv State.reset

/-- R21, R23, R43, R165, R162, R90, R219: every step keeps the invariant of Safety.lean, from every state that meets it. -/
def Obligations.EveryStepKeepsTheInvariant : Prop :=
  ∀ s t : State, Inv s → step s = .next t → Inv t

/-- R46, R48, R192: each event writes only its own agent's state, and none writes the parameters (R26, R29). -/
def Obligations.EachEventWritesOnlyItsAgentsState : Prop :=
  ∀ s t : State,
    (∀ d, exec (.rxEdge d) s = .next t → OnlyReceiver s t) ∧
    (exec .xlPoll s = .next t → OnlyTranslator s t) ∧
    (∀ r, exec (.txTick r) s = .next t → OnlyEngine s t)

/-- R56: an edge and a tick at the same instant give the same state in either order, but for the order of their markers in the
model's own trace (log 8). -/
def Obligations.EdgeAndTickCommute : Prop :=
  ∀ (d r : Bool) (s : State), ∃ a b a' b',
    exec (.rxEdge d) s = .next a ∧ exec (.txTick r) a = .next b ∧
    exec (.txTick r) s = .next a' ∧ exec (.rxEdge d) a' = .next b' ∧
    { b with trace := [] } = { b' with trace := [] }

/-- R7 (`drop` "writes no state and transfers no control"): no operation reads the trace of markers; each only adds to it, the
same markers whatever it held. -/
def Obligations.NoOperationReadsTheTrace : Prop :=
  ∀ (i : Instr) (s t : State), exec i s = .next t →
    ∃ marks, t.trace = marks ++ s.trace ∧
      ∀ other, exec i { s with trace := other } = .next { t with trace := marks ++ other }

/-- R181 to R185: which error class a step of the block records, and when: `E_FRAME` and `E_MBX_OVERWRITE` at an edge, never both;
`E_UNKNOWN_KEY` and `E_RB_FULL` at a poll, never both; none at a tick. A step adds one marker at most. -/
def Obligations.ErrorMarkersAreRaisedByTheirCasesOnly : Prop :=
  ∀ (s t : State), step s = .next t →
    t.trace = s.trace ∨ ∃ m, t.trace = m :: s.trace ∧
      match s.events with
      | [] => False
      | .edge d :: _ => s.rxWin.getLsbD 1 = true ∧
          ((d = false ∧ m = .eFrame ((s.rxWin >>> 1) ||| 0x400#11)) ∨
           (d = true ∧ s.mbxReady = true ∧ m = .eMbxOverwrite s.mbxByte))
      | .poll :: _ => s.hist1 ≠ 0xF0#8 ∧
          ((lookup s.params.table.keymap (formKey s s.mbxByte) = none ∧ formKey s s.mbxByte ∉ s.params.mods.toList ∧
              m = .eUnknownKey (formKey s s.mbxByte)) ∨
           (14 ≤ (queue s).length ∧ ∃ lost, m = .eRbFull lost ∧ queue t = queue s))
      | .tick r :: _ => s.txCount = 0 ∧ r = true ∧ ∃ v, (queue s).head? = some v ∧ m = .launch v
end

