-- ==== Sys2Proof/Laws/Decode.lean ====
section
/-! SUPPORT. The fields of assembled words (R62, R66, R67) and the table search (R122). -/

namespace Sys2Proof

theorem bitAt_getElem (n : Nat) (b : Bool) (i j : Nat) (h : j < n) : (bitAt n b i)[j] = (decide (j = i) && b) := by
  simp only [bitAt, BitVec.getElem_shiftLeft, BitVec.getElem_setWidth, BitVec.getLsbD_ofBool]
  by_cases h1 : j < i
  · simp [h1]; omega
  · by_cases h2 : j = i
    · subst h2; simp
    · simp [h2]; intro; omega

theorem bitAt_getLsbD (n : Nat) (b : Bool) (i j : Nat) :
    (bitAt n b i).getLsbD j = (decide (j < n) && decide (j = i) && b) := by
  by_cases h : j < n
  · rw [BitVec.getLsbD_eq_getElem h, bitAt_getElem]; simp [h]
  · rw [BitVec.getLsbD_of_ge _ _ (by omega)]; simp [h]

/-! ### `PS2WIN` -/

@[simp] theorem winStop_ps2Word (a b c : Bool) (d : Byte) : winStop (ps2Word a b d c) = a := by
  simp [winStop, ps2Word, bitAt_getElem]

@[simp] theorem winParity_ps2Word (a b c : Bool) (d : Byte) : winParity (ps2Word a b d c) = b := by
  simp [winParity, ps2Word, bitAt_getElem]

@[simp] theorem winStart_ps2Word (a b c : Bool) (d : Byte) : winStart (ps2Word a b d c) = c := by
  simp [winStart, ps2Word, bitAt_getElem]

@[simp] theorem winData_ps2Word (a b c : Bool) (d : Byte) : winData (ps2Word a b d c) = d := by
  ext i hi
  have h1 : 1 + i ≠ 10 := by omega
  have h2 : 1 + i ≠ 9 := by omega
  have h3 : 1 + i < 11 := by omega
  have h4 : i < 11 := by omega
  simp [winData, ps2Word, bitAt_getElem, h1, h2, h3, BitVec.getLsbD_eq_getElem hi]

/-- A window is its four fields. -/
theorem ps2Word_fields (w : Window) : ps2Word (winStop w) (winParity w) (winData w) (winStart w) = w := by
  ext i hi
  simp only [ps2Word, winStop, winParity, winData, winStart]
  have : i = 0 ∨ i = 10 ∨ i = 9 ∨ (1 ≤ i ∧ i ≤ 8) := by omega
  rcases this with h | h | h | ⟨h, h'⟩
  · subst h; simp [bitAt_getElem]
  · subst h; simp [bitAt_getElem]
  · subst h; simp [bitAt_getElem]
  · have h0 : i ≠ 0 := by omega
    have h9 : i ≠ 9 := by omega
    have h10 : i ≠ 10 := by omega
    have hs : 1 + (i - 1) = i := by omega
    have h8 : i - 1 < 8 := by omega
    have hp : ¬ i < 1 := by omega
    simp [bitAt_getElem, h0, h9, h10, hs, h8, hp, BitVec.getLsbD_eq_getElem hi]

/-! ### `XKEY` -/

@[simp] theorem xkeyRel_xkeyWord (r e : Bool) (b : Byte) : xkeyRel (xkeyWord r e b) = r := by
  simp [xkeyRel, xkeyWord, bitAt_getElem]

@[simp] theorem xkeyEsc_xkeyWord (r e : Bool) (b : Byte) : xkeyEsc (xkeyWord r e b) = e := by
  simp [xkeyEsc, xkeyWord, bitAt_getElem]

@[simp] theorem xkeyByte_xkeyWord (r e : Bool) (b : Byte) : xkeyByte (xkeyWord r e b) = b := by
  ext i hi
  have h1 : i ≠ 9 := by omega
  have h2 : i ≠ 8 := by omega
  simp [xkeyByte, xkeyWord, bitAt_getLsbD, h1, h2]

/-- An `XKEY` word is its three fields. -/
theorem xkeyWord_fields (w : XkeyWord) : xkeyWord (xkeyRel w) (xkeyEsc w) (xkeyByte w) = w := by
  ext i hi
  simp only [xkeyWord, xkeyRel, xkeyEsc, xkeyByte]
  have : i = 9 ∨ i = 8 ∨ i < 8 := by omega
  rcases this with h | h | h
  · subst h; simp [bitAt_getElem]
  · subst h; simp [bitAt_getElem]
  · have h9 : i ≠ 9 := by omega
    have h8 : i ≠ 8 := by omega
    simp [bitAt_getElem, h9, h8, h, BitVec.getLsbD_eq_getElem hi]

@[simp] theorem keyByte_lookupKey (e : Bool) (b : Byte) : keyByte (lookupKey e b) = b := by
  ext i hi
  have h2 : i ≠ 8 := by omega
  simp [keyByte, lookupKey, bitAt_getLsbD, h2]

@[simp] theorem lookupKey_msb (e : Bool) (b : Byte) : (lookupKey e b).getLsbD 8 = e := by
  simp [lookupKey, bitAt_getElem]

/-- A key is its escape flag and its byte. -/
theorem lookupKey_fields (k : Key) : lookupKey (k.getLsbD 8) (keyByte k) = k := by
  ext i hi
  simp only [lookupKey, keyByte]
  have : i = 8 ∨ i < 8 := by omega
  rcases this with h | h
  · subst h; simp [bitAt_getElem]
  · have h8 : i ≠ 8 := by omega
    simp [bitAt_getElem, h8, h, BitVec.getLsbD_eq_getElem hi]

/-- The word of a key is the word of its flag and byte. -/
theorem xkeyOfKey_lookupKey (r e : Bool) (b : Byte) : xkeyOfKey r (lookupKey e b) = xkeyWord r e b := by
  ext i hi
  simp only [xkeyOfKey, xkeyWord, lookupKey]
  have : i = 9 ∨ i = 8 ∨ i < 8 := by omega
  rcases this with h | h | h
  · subst h; simp [bitAt_getElem]
  · subst h; simp [bitAt_getElem]
  · have h9 : i ≠ 9 := by omega
    have h8 : i ≠ 8 := by omega
    have hl : i < 9 := by omega
    simp [bitAt_getElem, h9, h8, hl]

/-! ### Admissible parameters -/

/-- What admissible modifier codes are (R5, R72). -/
theorem ModCodes.wf_iff (m : ModCodes) :
    m.wf = true ↔ m.lshift = 0x012#9 ∧ m.lctrl = 0x014#9 ∧ m.distinct = true := by
  simp [ModCodes.wf, and_assoc]

/-- What admissible parameters are (R5, R70 to R72, R163). -/
theorem Params.wf_iff (p : Params) :
    p.wf = true ↔ p.mods.wf = true ∧ p.wave.admissible = true ∧ p.table.wf p.mods = true := by
  simp [Params.wf, and_assoc]

end Sys2Proof
end

