-- ==== Sys2Proof/Laws/Memory.lean ====
section
/-! SUPPORT. The laws of `rb_mem` (R23, R43): a read after a write, the frame of a write, the canonical form kept, and equal
readings of canonical memories are equal memories. -/

namespace Sys2Proof.Machine

@[simp] theorem Memory.readAt_writeAt_same (m : Memory) (a : Nat) (v : Byte) : (m.writeAt a v).readAt a = v := by
  induction m with
  | nil => simp [Memory.writeAt, Memory.readAt]
  | cons c rest ih =>
    obtain ⟨b, w⟩ := c
    by_cases hb : b = a
    · simp [Memory.writeAt, Memory.readAt, hb]
    · by_cases hl : a < b
      · simp [Memory.writeAt, Memory.readAt, hb, hl]
      · simp [Memory.writeAt, Memory.readAt, hb, hl, ih]

theorem Memory.readAt_writeAt_other (m : Memory) {a b : Nat} (v : Byte) (h : b ≠ a) :
    (m.writeAt a v).readAt b = m.readAt b := by
  have h' : a ≠ b := fun e => h e.symm
  induction m with
  | nil => simp [Memory.writeAt, Memory.readAt, h']
  | cons c rest ih =>
    obtain ⟨d, w⟩ := c
    by_cases hd : d = a
    · subst hd
      simp [Memory.writeAt, Memory.readAt, h']
    · by_cases hl : a < d
      · simp [Memory.writeAt, Memory.readAt, hd, hl, h']
      · simp only [Memory.writeAt, if_neg hd, if_neg hl, Memory.readAt, ih]

/-- A write at an address that a rising list holds leaves the addresses as they are. -/
theorem Memory.map_fst_writeAt (m : Memory) (a : Nat) (v : Byte) (hs : (m.map Prod.fst).Pairwise (· < ·))
    (ha : a ∈ m.map Prod.fst) : (m.writeAt a v).map Prod.fst = m.map Prod.fst := by
  induction m with
  | nil => simp at ha
  | cons c rest ih =>
    obtain ⟨b, w⟩ := c
    simp only [List.map_cons, List.pairwise_cons] at hs
    by_cases hb : b = a
    · simp [Memory.writeAt, hb]
    · have ha' : a ∈ rest.map Prod.fst := by
        simp only [List.map_cons, List.mem_cons] at ha
        exact ha.resolve_left (fun e => hb e.symm)
      have hl : ¬ a < b := Nat.not_lt.mpr (Nat.le_of_lt (hs.1 a ha'))
      simp [Memory.writeAt, hb, hl, ih hs.2 ha']

/-- The one memory operation that writes keeps the canonical form. -/
theorem rbWrite_wf (m : Memory) (i : RingIndex) (v : Byte) (h : Memory.wf m) : Memory.wf (rbWrite m i v) := by
  have hi : i.toNat < 16 := i.isLt
  unfold Memory.wf at h ⊢
  rw [← h]
  refine Memory.map_fst_writeAt m i.toNat v ?_ ?_
  · rw [h]; exact List.pairwise_lt_range
  · rw [h]; exact List.mem_range.mpr hi

theorem Memory.reset_wf : Memory.wf Memory.reset := by
  simp [Memory.wf, Memory.reset, List.map_map, Function.comp_def]

@[simp] theorem rbRead_rbWrite_same (m : Memory) (i : RingIndex) (v : Byte) : rbRead (rbWrite m i v) i = v :=
  Memory.readAt_writeAt_same m i.toNat v

theorem rbRead_rbWrite_other (m : Memory) {i j : RingIndex} (v : Byte) (h : j ≠ i) :
    rbRead (rbWrite m i v) j = rbRead m j :=
  Memory.readAt_writeAt_other m v (fun e => h (BitVec.eq_of_toNat_eq e))

/-- A canonical list of cells is determined by what it reads as. -/
theorem Memory.eq_of_readAt_eq : ∀ (m n : Memory), m.map Prod.fst = n.map Prod.fst → (m.map Prod.fst).Nodup →
    (∀ a ∈ m.map Prod.fst, m.readAt a = n.readAt a) → m = n
  | [], n, h, _, _ => by simpa using h.symm
  | (a, v) :: m, [], h, _, _ => by simp at h
  | (a, v) :: m, (b, w) :: n, h, hd, hr => by
    simp only [List.map_cons, List.cons.injEq] at h
    simp only [List.map_cons, List.nodup_cons] at hd
    obtain ⟨rfl, ht⟩ := h
    have hv : v = w := by simpa [Memory.readAt] using hr a (by simp)
    subst hv
    congr 1
    refine Memory.eq_of_readAt_eq m n ht hd.2 (fun c hc => ?_)
    have hca : a ≠ c := fun e => hd.1 (e ▸ hc)
    simpa [Memory.readAt, hca] using hr c (by simp only [List.map_cons]; exact List.mem_cons_of_mem _ hc)

/-- Two canonical memories that read the same at every cell are the same. -/
theorem Memory.wf_ext (m n : Memory) (hm : Memory.wf m) (hn : Memory.wf n) (h : ∀ i, rbRead m i = rbRead n i) : m = n := by
  refine Memory.eq_of_readAt_eq m n (hm.trans hn.symm) (by rw [hm]; exact List.nodup_range) (fun a ha => ?_)
  rw [hm, List.mem_range] at ha
  have := h (BitVec.ofNat 4 a)
  simpa [rbRead, BitVec.toNat_ofNat, Nat.mod_eq_of_lt ha] using this

end Sys2Proof.Machine
end

