-- ==== Sys2Proof/Laws/State.lean ====
section
/-! SUPPORT. The field of every state update: one lemma for each field of each update, true by unfolding, so that no later
proof unfolds a record update. -/

namespace Sys2Proof.Machine

/-! ### `note` -/

@[simp] theorem note_rxWin (k : Mark) (s : State) : (note k s).rxWin = s.rxWin := rfl
@[simp] theorem note_mbxByte (k : Mark) (s : State) : (note k s).mbxByte = s.mbxByte := rfl
@[simp] theorem note_mbxReady (k : Mark) (s : State) : (note k s).mbxReady = s.mbxReady := rfl
@[simp] theorem note_hist1 (k : Mark) (s : State) : (note k s).hist1 = s.hist1 := rfl
@[simp] theorem note_hist2 (k : Mark) (s : State) : (note k s).hist2 = s.hist2 := rfl
@[simp] theorem note_modShift (k : Mark) (s : State) : (note k s).modShift = s.modShift := rfl
@[simp] theorem note_modCtrl (k : Mark) (s : State) : (note k s).modCtrl = s.modCtrl := rfl
@[simp] theorem note_modAlt (k : Mark) (s : State) : (note k s).modAlt = s.modAlt := rfl
@[simp] theorem note_modCaps (k : Mark) (s : State) : (note k s).modCaps = s.modCaps := rfl
@[simp] theorem note_rbMem (k : Mark) (s : State) : (note k s).rbMem = s.rbMem := rfl
@[simp] theorem note_rbIn (k : Mark) (s : State) : (note k s).rbIn = s.rbIn := rfl
@[simp] theorem note_rbOut (k : Mark) (s : State) : (note k s).rbOut = s.rbOut := rfl
@[simp] theorem note_txCount (k : Mark) (s : State) : (note k s).txCount = s.txCount := rfl
@[simp] theorem note_txSr (k : Mark) (s : State) : (note k s).txSr = s.txSr := rfl
@[simp] theorem note_tandyClk (k : Mark) (s : State) : (note k s).tandyClk = s.tandyClk := rfl
@[simp] theorem note_tandyData (k : Mark) (s : State) : (note k s).tandyData = s.tandyData := rfl
@[simp] theorem note_serOut (k : Mark) (s : State) : (note k s).serOut = s.serOut := rfl
@[simp] theorem note_params (k : Mark) (s : State) : (note k s).params = s.params := rfl
@[simp] theorem note_takePending (k : Mark) (s : State) : (note k s).takePending = s.takePending := rfl
@[simp] theorem note_events (k : Mark) (s : State) : (note k s).events = s.events := rfl
@[simp] theorem note_trace (k : Mark) (s : State) : (note k s).trace = k :: s.trace := rfl

/-! ### `historyUpdate` -/

@[simp] theorem historyUpdate_rxWin (b : Byte) (s : State) : (historyUpdate b s).rxWin = s.rxWin := rfl
@[simp] theorem historyUpdate_mbxByte (b : Byte) (s : State) : (historyUpdate b s).mbxByte = s.mbxByte := rfl
@[simp] theorem historyUpdate_mbxReady (b : Byte) (s : State) : (historyUpdate b s).mbxReady = s.mbxReady := rfl
@[simp] theorem historyUpdate_hist1 (b : Byte) (s : State) : (historyUpdate b s).hist1 = b := rfl
@[simp] theorem historyUpdate_hist2 (b : Byte) (s : State) : (historyUpdate b s).hist2 = s.hist1 := rfl
@[simp] theorem historyUpdate_modShift (b : Byte) (s : State) : (historyUpdate b s).modShift = s.modShift := rfl
@[simp] theorem historyUpdate_modCtrl (b : Byte) (s : State) : (historyUpdate b s).modCtrl = s.modCtrl := rfl
@[simp] theorem historyUpdate_modAlt (b : Byte) (s : State) : (historyUpdate b s).modAlt = s.modAlt := rfl
@[simp] theorem historyUpdate_modCaps (b : Byte) (s : State) : (historyUpdate b s).modCaps = s.modCaps := rfl
@[simp] theorem historyUpdate_rbMem (b : Byte) (s : State) : (historyUpdate b s).rbMem = s.rbMem := rfl
@[simp] theorem historyUpdate_rbIn (b : Byte) (s : State) : (historyUpdate b s).rbIn = s.rbIn := rfl
@[simp] theorem historyUpdate_rbOut (b : Byte) (s : State) : (historyUpdate b s).rbOut = s.rbOut := rfl
@[simp] theorem historyUpdate_txCount (b : Byte) (s : State) : (historyUpdate b s).txCount = s.txCount := rfl
@[simp] theorem historyUpdate_txSr (b : Byte) (s : State) : (historyUpdate b s).txSr = s.txSr := rfl
@[simp] theorem historyUpdate_tandyClk (b : Byte) (s : State) : (historyUpdate b s).tandyClk = s.tandyClk := rfl
@[simp] theorem historyUpdate_tandyData (b : Byte) (s : State) : (historyUpdate b s).tandyData = s.tandyData := rfl
@[simp] theorem historyUpdate_serOut (b : Byte) (s : State) : (historyUpdate b s).serOut = s.serOut := rfl
@[simp] theorem historyUpdate_params (b : Byte) (s : State) : (historyUpdate b s).params = s.params := rfl
@[simp] theorem historyUpdate_takePending (b : Byte) (s : State) : (historyUpdate b s).takePending = s.takePending := rfl
@[simp] theorem historyUpdate_events (b : Byte) (s : State) : (historyUpdate b s).events = s.events := rfl
@[simp] theorem historyUpdate_trace (b : Byte) (s : State) : (historyUpdate b s).trace = s.trace := rfl

/-! ### `applySlot` -/

@[simp] theorem applySlot_rxWin (a : TandySlot) (b : Bool) (s : State) : (applySlot a b s).rxWin = s.rxWin := rfl
@[simp] theorem applySlot_mbxByte (a : TandySlot) (b : Bool) (s : State) : (applySlot a b s).mbxByte = s.mbxByte := rfl
@[simp] theorem applySlot_mbxReady (a : TandySlot) (b : Bool) (s : State) : (applySlot a b s).mbxReady = s.mbxReady := rfl
@[simp] theorem applySlot_hist1 (a : TandySlot) (b : Bool) (s : State) : (applySlot a b s).hist1 = s.hist1 := rfl
@[simp] theorem applySlot_hist2 (a : TandySlot) (b : Bool) (s : State) : (applySlot a b s).hist2 = s.hist2 := rfl
@[simp] theorem applySlot_modShift (a : TandySlot) (b : Bool) (s : State) : (applySlot a b s).modShift = s.modShift := rfl
@[simp] theorem applySlot_modCtrl (a : TandySlot) (b : Bool) (s : State) : (applySlot a b s).modCtrl = s.modCtrl := rfl
@[simp] theorem applySlot_modAlt (a : TandySlot) (b : Bool) (s : State) : (applySlot a b s).modAlt = s.modAlt := rfl
@[simp] theorem applySlot_modCaps (a : TandySlot) (b : Bool) (s : State) : (applySlot a b s).modCaps = s.modCaps := rfl
@[simp] theorem applySlot_rbMem (a : TandySlot) (b : Bool) (s : State) : (applySlot a b s).rbMem = s.rbMem := rfl
@[simp] theorem applySlot_rbIn (a : TandySlot) (b : Bool) (s : State) : (applySlot a b s).rbIn = s.rbIn := rfl
@[simp] theorem applySlot_rbOut (a : TandySlot) (b : Bool) (s : State) : (applySlot a b s).rbOut = s.rbOut := rfl
@[simp] theorem applySlot_txCount (a : TandySlot) (b : Bool) (s : State) : (applySlot a b s).txCount = s.txCount := rfl
@[simp] theorem applySlot_txSr (a : TandySlot) (b : Bool) (s : State) : (applySlot a b s).txSr = s.txSr := rfl
@[simp] theorem applySlot_tandyClk (a : TandySlot) (b : Bool) (s : State) : (applySlot a b s).tandyClk = a.clk.level b s.tandyClk := rfl
@[simp] theorem applySlot_tandyData (a : TandySlot) (b : Bool) (s : State) : (applySlot a b s).tandyData = a.data.level b s.tandyData := rfl
@[simp] theorem applySlot_serOut (a : TandySlot) (b : Bool) (s : State) : (applySlot a b s).serOut = s.serOut := rfl
@[simp] theorem applySlot_params (a : TandySlot) (b : Bool) (s : State) : (applySlot a b s).params = s.params := rfl
@[simp] theorem applySlot_takePending (a : TandySlot) (b : Bool) (s : State) : (applySlot a b s).takePending = s.takePending := rfl
@[simp] theorem applySlot_events (a : TandySlot) (b : Bool) (s : State) : (applySlot a b s).events = s.events := rfl
@[simp] theorem applySlot_trace (a : TandySlot) (b : Bool) (s : State) : (applySlot a b s).trace = s.trace := rfl

/-! ### `applyWave` -/

@[simp] theorem applyWave_rxWin (c : TickCount) (s : State) : (applyWave c s).rxWin = s.rxWin := rfl
@[simp] theorem applyWave_mbxByte (c : TickCount) (s : State) : (applyWave c s).mbxByte = s.mbxByte := rfl
@[simp] theorem applyWave_mbxReady (c : TickCount) (s : State) : (applyWave c s).mbxReady = s.mbxReady := rfl
@[simp] theorem applyWave_hist1 (c : TickCount) (s : State) : (applyWave c s).hist1 = s.hist1 := rfl
@[simp] theorem applyWave_hist2 (c : TickCount) (s : State) : (applyWave c s).hist2 = s.hist2 := rfl
@[simp] theorem applyWave_modShift (c : TickCount) (s : State) : (applyWave c s).modShift = s.modShift := rfl
@[simp] theorem applyWave_modCtrl (c : TickCount) (s : State) : (applyWave c s).modCtrl = s.modCtrl := rfl
@[simp] theorem applyWave_modAlt (c : TickCount) (s : State) : (applyWave c s).modAlt = s.modAlt := rfl
@[simp] theorem applyWave_modCaps (c : TickCount) (s : State) : (applyWave c s).modCaps = s.modCaps := rfl
@[simp] theorem applyWave_rbMem (c : TickCount) (s : State) : (applyWave c s).rbMem = s.rbMem := rfl
@[simp] theorem applyWave_rbIn (c : TickCount) (s : State) : (applyWave c s).rbIn = s.rbIn := rfl
@[simp] theorem applyWave_rbOut (c : TickCount) (s : State) : (applyWave c s).rbOut = s.rbOut := rfl
@[simp] theorem applyWave_txCount (c : TickCount) (s : State) : (applyWave c s).txCount = s.txCount := rfl
@[simp] theorem applyWave_txSr (c : TickCount) (s : State) : (applyWave c s).txSr = s.txSr := rfl
@[simp] theorem applyWave_tandyClk (c : TickCount) (s : State) : (applyWave c s).tandyClk = (s.params.wave.get c).clk.level (txBit s) s.tandyClk := rfl
@[simp] theorem applyWave_tandyData (c : TickCount) (s : State) : (applyWave c s).tandyData = (s.params.wave.get c).data.level (txBit s) s.tandyData := rfl
@[simp] theorem applyWave_serOut (c : TickCount) (s : State) : (applyWave c s).serOut = s.serOut := rfl
@[simp] theorem applyWave_params (c : TickCount) (s : State) : (applyWave c s).params = s.params := rfl
@[simp] theorem applyWave_takePending (c : TickCount) (s : State) : (applyWave c s).takePending = s.takePending := rfl
@[simp] theorem applyWave_events (c : TickCount) (s : State) : (applyWave c s).events = s.events := rfl
@[simp] theorem applyWave_trace (c : TickCount) (s : State) : (applyWave c s).trace = s.trace := rfl

/-! ### `advance` -/

@[simp] theorem advance_rxWin (c : TickCount) (s : State) : (advance c s).rxWin = s.rxWin := rfl
@[simp] theorem advance_mbxByte (c : TickCount) (s : State) : (advance c s).mbxByte = s.mbxByte := rfl
@[simp] theorem advance_mbxReady (c : TickCount) (s : State) : (advance c s).mbxReady = s.mbxReady := rfl
@[simp] theorem advance_hist1 (c : TickCount) (s : State) : (advance c s).hist1 = s.hist1 := rfl
@[simp] theorem advance_hist2 (c : TickCount) (s : State) : (advance c s).hist2 = s.hist2 := rfl
@[simp] theorem advance_modShift (c : TickCount) (s : State) : (advance c s).modShift = s.modShift := rfl
@[simp] theorem advance_modCtrl (c : TickCount) (s : State) : (advance c s).modCtrl = s.modCtrl := rfl
@[simp] theorem advance_modAlt (c : TickCount) (s : State) : (advance c s).modAlt = s.modAlt := rfl
@[simp] theorem advance_modCaps (c : TickCount) (s : State) : (advance c s).modCaps = s.modCaps := rfl
@[simp] theorem advance_rbMem (c : TickCount) (s : State) : (advance c s).rbMem = s.rbMem := rfl
@[simp] theorem advance_rbIn (c : TickCount) (s : State) : (advance c s).rbIn = s.rbIn := rfl
@[simp] theorem advance_rbOut (c : TickCount) (s : State) : (advance c s).rbOut = s.rbOut := rfl
@[simp] theorem advance_txCount (c : TickCount) (s : State) : (advance c s).txCount = nextCount c := rfl
@[simp] theorem advance_txSr (c : TickCount) (s : State) : (advance c s).txSr = s.txSr := rfl
@[simp] theorem advance_tandyClk (c : TickCount) (s : State) : (advance c s).tandyClk = s.tandyClk := rfl
@[simp] theorem advance_tandyData (c : TickCount) (s : State) : (advance c s).tandyData = s.tandyData := rfl
@[simp] theorem advance_serOut (c : TickCount) (s : State) : (advance c s).serOut = s.serOut := rfl
@[simp] theorem advance_params (c : TickCount) (s : State) : (advance c s).params = s.params := rfl
@[simp] theorem advance_takePending (c : TickCount) (s : State) : (advance c s).takePending = s.takePending := rfl
@[simp] theorem advance_events (c : TickCount) (s : State) : (advance c s).events = s.events := rfl
@[simp] theorem advance_trace (c : TickCount) (s : State) : (advance c s).trace = s.trace := rfl

/-! ### `keepWindow` -/

@[simp] theorem keepWindow_rxWin (w : Window) (s : State) : (keepWindow w s).rxWin = w := rfl
@[simp] theorem keepWindow_mbxByte (w : Window) (s : State) : (keepWindow w s).mbxByte = s.mbxByte := rfl
@[simp] theorem keepWindow_mbxReady (w : Window) (s : State) : (keepWindow w s).mbxReady = s.mbxReady := rfl
@[simp] theorem keepWindow_hist1 (w : Window) (s : State) : (keepWindow w s).hist1 = s.hist1 := rfl
@[simp] theorem keepWindow_hist2 (w : Window) (s : State) : (keepWindow w s).hist2 = s.hist2 := rfl
@[simp] theorem keepWindow_modShift (w : Window) (s : State) : (keepWindow w s).modShift = s.modShift := rfl
@[simp] theorem keepWindow_modCtrl (w : Window) (s : State) : (keepWindow w s).modCtrl = s.modCtrl := rfl
@[simp] theorem keepWindow_modAlt (w : Window) (s : State) : (keepWindow w s).modAlt = s.modAlt := rfl
@[simp] theorem keepWindow_modCaps (w : Window) (s : State) : (keepWindow w s).modCaps = s.modCaps := rfl
@[simp] theorem keepWindow_rbMem (w : Window) (s : State) : (keepWindow w s).rbMem = s.rbMem := rfl
@[simp] theorem keepWindow_rbIn (w : Window) (s : State) : (keepWindow w s).rbIn = s.rbIn := rfl
@[simp] theorem keepWindow_rbOut (w : Window) (s : State) : (keepWindow w s).rbOut = s.rbOut := rfl
@[simp] theorem keepWindow_txCount (w : Window) (s : State) : (keepWindow w s).txCount = s.txCount := rfl
@[simp] theorem keepWindow_txSr (w : Window) (s : State) : (keepWindow w s).txSr = s.txSr := rfl
@[simp] theorem keepWindow_tandyClk (w : Window) (s : State) : (keepWindow w s).tandyClk = s.tandyClk := rfl
@[simp] theorem keepWindow_tandyData (w : Window) (s : State) : (keepWindow w s).tandyData = s.tandyData := rfl
@[simp] theorem keepWindow_serOut (w : Window) (s : State) : (keepWindow w s).serOut = s.serOut := rfl
@[simp] theorem keepWindow_params (w : Window) (s : State) : (keepWindow w s).params = s.params := rfl
@[simp] theorem keepWindow_takePending (w : Window) (s : State) : (keepWindow w s).takePending = s.takePending := rfl
@[simp] theorem keepWindow_events (w : Window) (s : State) : (keepWindow w s).events = s.events := rfl
@[simp] theorem keepWindow_trace (w : Window) (s : State) : (keepWindow w s).trace = s.trace := rfl

/-! ### `rejectWindow` -/

@[simp] theorem rejectWindow_rxWin (w : Window) (s : State) : (rejectWindow w s).rxWin = 0#11 := rfl
@[simp] theorem rejectWindow_mbxByte (w : Window) (s : State) : (rejectWindow w s).mbxByte = s.mbxByte := rfl
@[simp] theorem rejectWindow_mbxReady (w : Window) (s : State) : (rejectWindow w s).mbxReady = s.mbxReady := rfl
@[simp] theorem rejectWindow_hist1 (w : Window) (s : State) : (rejectWindow w s).hist1 = s.hist1 := rfl
@[simp] theorem rejectWindow_hist2 (w : Window) (s : State) : (rejectWindow w s).hist2 = s.hist2 := rfl
@[simp] theorem rejectWindow_modShift (w : Window) (s : State) : (rejectWindow w s).modShift = s.modShift := rfl
@[simp] theorem rejectWindow_modCtrl (w : Window) (s : State) : (rejectWindow w s).modCtrl = s.modCtrl := rfl
@[simp] theorem rejectWindow_modAlt (w : Window) (s : State) : (rejectWindow w s).modAlt = s.modAlt := rfl
@[simp] theorem rejectWindow_modCaps (w : Window) (s : State) : (rejectWindow w s).modCaps = s.modCaps := rfl
@[simp] theorem rejectWindow_rbMem (w : Window) (s : State) : (rejectWindow w s).rbMem = s.rbMem := rfl
@[simp] theorem rejectWindow_rbIn (w : Window) (s : State) : (rejectWindow w s).rbIn = s.rbIn := rfl
@[simp] theorem rejectWindow_rbOut (w : Window) (s : State) : (rejectWindow w s).rbOut = s.rbOut := rfl
@[simp] theorem rejectWindow_txCount (w : Window) (s : State) : (rejectWindow w s).txCount = s.txCount := rfl
@[simp] theorem rejectWindow_txSr (w : Window) (s : State) : (rejectWindow w s).txSr = s.txSr := rfl
@[simp] theorem rejectWindow_tandyClk (w : Window) (s : State) : (rejectWindow w s).tandyClk = s.tandyClk := rfl
@[simp] theorem rejectWindow_tandyData (w : Window) (s : State) : (rejectWindow w s).tandyData = s.tandyData := rfl
@[simp] theorem rejectWindow_serOut (w : Window) (s : State) : (rejectWindow w s).serOut = s.serOut := rfl
@[simp] theorem rejectWindow_params (w : Window) (s : State) : (rejectWindow w s).params = s.params := rfl
@[simp] theorem rejectWindow_takePending (w : Window) (s : State) : (rejectWindow w s).takePending = s.takePending := rfl
@[simp] theorem rejectWindow_events (w : Window) (s : State) : (rejectWindow w s).events = s.events := rfl
@[simp] theorem rejectWindow_trace (w : Window) (s : State) : (rejectWindow w s).trace = .eFrame w :: s.trace := rfl

/-! ### `releaseShift` -/

@[simp] theorem releaseShift_rxWin (b : ModField) (s : State) : (releaseShift b s).rxWin = s.rxWin := rfl
@[simp] theorem releaseShift_mbxByte (b : ModField) (s : State) : (releaseShift b s).mbxByte = s.mbxByte := rfl
@[simp] theorem releaseShift_mbxReady (b : ModField) (s : State) : (releaseShift b s).mbxReady = s.mbxReady := rfl
@[simp] theorem releaseShift_hist1 (b : ModField) (s : State) : (releaseShift b s).hist1 = s.hist1 := rfl
@[simp] theorem releaseShift_hist2 (b : ModField) (s : State) : (releaseShift b s).hist2 = s.hist2 := rfl
@[simp] theorem releaseShift_modShift (b : ModField) (s : State) : (releaseShift b s).modShift = clearBits s.modShift b := rfl
@[simp] theorem releaseShift_modCtrl (b : ModField) (s : State) : (releaseShift b s).modCtrl = s.modCtrl := rfl
@[simp] theorem releaseShift_modAlt (b : ModField) (s : State) : (releaseShift b s).modAlt = s.modAlt := rfl
@[simp] theorem releaseShift_modCaps (b : ModField) (s : State) : (releaseShift b s).modCaps = s.modCaps := rfl
@[simp] theorem releaseShift_rbMem (b : ModField) (s : State) : (releaseShift b s).rbMem = s.rbMem := rfl
@[simp] theorem releaseShift_rbIn (b : ModField) (s : State) : (releaseShift b s).rbIn = s.rbIn := rfl
@[simp] theorem releaseShift_rbOut (b : ModField) (s : State) : (releaseShift b s).rbOut = s.rbOut := rfl
@[simp] theorem releaseShift_txCount (b : ModField) (s : State) : (releaseShift b s).txCount = s.txCount := rfl
@[simp] theorem releaseShift_txSr (b : ModField) (s : State) : (releaseShift b s).txSr = s.txSr := rfl
@[simp] theorem releaseShift_tandyClk (b : ModField) (s : State) : (releaseShift b s).tandyClk = s.tandyClk := rfl
@[simp] theorem releaseShift_tandyData (b : ModField) (s : State) : (releaseShift b s).tandyData = s.tandyData := rfl
@[simp] theorem releaseShift_serOut (b : ModField) (s : State) : (releaseShift b s).serOut = s.serOut := rfl
@[simp] theorem releaseShift_params (b : ModField) (s : State) : (releaseShift b s).params = s.params := rfl
@[simp] theorem releaseShift_takePending (b : ModField) (s : State) : (releaseShift b s).takePending = s.takePending := rfl
@[simp] theorem releaseShift_events (b : ModField) (s : State) : (releaseShift b s).events = s.events := rfl
@[simp] theorem releaseShift_trace (b : ModField) (s : State) : (releaseShift b s).trace = s.trace := rfl

/-! ### `releaseCtrl` -/

@[simp] theorem releaseCtrl_rxWin (b : ModField) (s : State) : (releaseCtrl b s).rxWin = s.rxWin := rfl
@[simp] theorem releaseCtrl_mbxByte (b : ModField) (s : State) : (releaseCtrl b s).mbxByte = s.mbxByte := rfl
@[simp] theorem releaseCtrl_mbxReady (b : ModField) (s : State) : (releaseCtrl b s).mbxReady = s.mbxReady := rfl
@[simp] theorem releaseCtrl_hist1 (b : ModField) (s : State) : (releaseCtrl b s).hist1 = s.hist1 := rfl
@[simp] theorem releaseCtrl_hist2 (b : ModField) (s : State) : (releaseCtrl b s).hist2 = s.hist2 := rfl
@[simp] theorem releaseCtrl_modShift (b : ModField) (s : State) : (releaseCtrl b s).modShift = s.modShift := rfl
@[simp] theorem releaseCtrl_modCtrl (b : ModField) (s : State) : (releaseCtrl b s).modCtrl = clearBits s.modCtrl b := rfl
@[simp] theorem releaseCtrl_modAlt (b : ModField) (s : State) : (releaseCtrl b s).modAlt = s.modAlt := rfl
@[simp] theorem releaseCtrl_modCaps (b : ModField) (s : State) : (releaseCtrl b s).modCaps = s.modCaps := rfl
@[simp] theorem releaseCtrl_rbMem (b : ModField) (s : State) : (releaseCtrl b s).rbMem = s.rbMem := rfl
@[simp] theorem releaseCtrl_rbIn (b : ModField) (s : State) : (releaseCtrl b s).rbIn = s.rbIn := rfl
@[simp] theorem releaseCtrl_rbOut (b : ModField) (s : State) : (releaseCtrl b s).rbOut = s.rbOut := rfl
@[simp] theorem releaseCtrl_txCount (b : ModField) (s : State) : (releaseCtrl b s).txCount = s.txCount := rfl
@[simp] theorem releaseCtrl_txSr (b : ModField) (s : State) : (releaseCtrl b s).txSr = s.txSr := rfl
@[simp] theorem releaseCtrl_tandyClk (b : ModField) (s : State) : (releaseCtrl b s).tandyClk = s.tandyClk := rfl
@[simp] theorem releaseCtrl_tandyData (b : ModField) (s : State) : (releaseCtrl b s).tandyData = s.tandyData := rfl
@[simp] theorem releaseCtrl_serOut (b : ModField) (s : State) : (releaseCtrl b s).serOut = s.serOut := rfl
@[simp] theorem releaseCtrl_params (b : ModField) (s : State) : (releaseCtrl b s).params = s.params := rfl
@[simp] theorem releaseCtrl_takePending (b : ModField) (s : State) : (releaseCtrl b s).takePending = s.takePending := rfl
@[simp] theorem releaseCtrl_events (b : ModField) (s : State) : (releaseCtrl b s).events = s.events := rfl
@[simp] theorem releaseCtrl_trace (b : ModField) (s : State) : (releaseCtrl b s).trace = s.trace := rfl

/-! ### `releaseAlt` -/

@[simp] theorem releaseAlt_rxWin (b : ModField) (s : State) : (releaseAlt b s).rxWin = s.rxWin := rfl
@[simp] theorem releaseAlt_mbxByte (b : ModField) (s : State) : (releaseAlt b s).mbxByte = s.mbxByte := rfl
@[simp] theorem releaseAlt_mbxReady (b : ModField) (s : State) : (releaseAlt b s).mbxReady = s.mbxReady := rfl
@[simp] theorem releaseAlt_hist1 (b : ModField) (s : State) : (releaseAlt b s).hist1 = s.hist1 := rfl
@[simp] theorem releaseAlt_hist2 (b : ModField) (s : State) : (releaseAlt b s).hist2 = s.hist2 := rfl
@[simp] theorem releaseAlt_modShift (b : ModField) (s : State) : (releaseAlt b s).modShift = s.modShift := rfl
@[simp] theorem releaseAlt_modCtrl (b : ModField) (s : State) : (releaseAlt b s).modCtrl = s.modCtrl := rfl
@[simp] theorem releaseAlt_modAlt (b : ModField) (s : State) : (releaseAlt b s).modAlt = clearBits s.modAlt b := rfl
@[simp] theorem releaseAlt_modCaps (b : ModField) (s : State) : (releaseAlt b s).modCaps = s.modCaps := rfl
@[simp] theorem releaseAlt_rbMem (b : ModField) (s : State) : (releaseAlt b s).rbMem = s.rbMem := rfl
@[simp] theorem releaseAlt_rbIn (b : ModField) (s : State) : (releaseAlt b s).rbIn = s.rbIn := rfl
@[simp] theorem releaseAlt_rbOut (b : ModField) (s : State) : (releaseAlt b s).rbOut = s.rbOut := rfl
@[simp] theorem releaseAlt_txCount (b : ModField) (s : State) : (releaseAlt b s).txCount = s.txCount := rfl
@[simp] theorem releaseAlt_txSr (b : ModField) (s : State) : (releaseAlt b s).txSr = s.txSr := rfl
@[simp] theorem releaseAlt_tandyClk (b : ModField) (s : State) : (releaseAlt b s).tandyClk = s.tandyClk := rfl
@[simp] theorem releaseAlt_tandyData (b : ModField) (s : State) : (releaseAlt b s).tandyData = s.tandyData := rfl
@[simp] theorem releaseAlt_serOut (b : ModField) (s : State) : (releaseAlt b s).serOut = s.serOut := rfl
@[simp] theorem releaseAlt_params (b : ModField) (s : State) : (releaseAlt b s).params = s.params := rfl
@[simp] theorem releaseAlt_takePending (b : ModField) (s : State) : (releaseAlt b s).takePending = s.takePending := rfl
@[simp] theorem releaseAlt_events (b : ModField) (s : State) : (releaseAlt b s).events = s.events := rfl
@[simp] theorem releaseAlt_trace (b : ModField) (s : State) : (releaseAlt b s).trace = s.trace := rfl

/-! ### `releaseCaps` -/

@[simp] theorem releaseCaps_rxWin (s : State) : (releaseCaps s).rxWin = s.rxWin := rfl
@[simp] theorem releaseCaps_mbxByte (s : State) : (releaseCaps s).mbxByte = s.mbxByte := rfl
@[simp] theorem releaseCaps_mbxReady (s : State) : (releaseCaps s).mbxReady = s.mbxReady := rfl
@[simp] theorem releaseCaps_hist1 (s : State) : (releaseCaps s).hist1 = s.hist1 := rfl
@[simp] theorem releaseCaps_hist2 (s : State) : (releaseCaps s).hist2 = s.hist2 := rfl
@[simp] theorem releaseCaps_modShift (s : State) : (releaseCaps s).modShift = s.modShift := rfl
@[simp] theorem releaseCaps_modCtrl (s : State) : (releaseCaps s).modCtrl = s.modCtrl := rfl
@[simp] theorem releaseCaps_modAlt (s : State) : (releaseCaps s).modAlt = s.modAlt := rfl
@[simp] theorem releaseCaps_modCaps (s : State) : (releaseCaps s).modCaps = capsRelease s.modCaps := rfl
@[simp] theorem releaseCaps_rbMem (s : State) : (releaseCaps s).rbMem = s.rbMem := rfl
@[simp] theorem releaseCaps_rbIn (s : State) : (releaseCaps s).rbIn = s.rbIn := rfl
@[simp] theorem releaseCaps_rbOut (s : State) : (releaseCaps s).rbOut = s.rbOut := rfl
@[simp] theorem releaseCaps_txCount (s : State) : (releaseCaps s).txCount = s.txCount := rfl
@[simp] theorem releaseCaps_txSr (s : State) : (releaseCaps s).txSr = s.txSr := rfl
@[simp] theorem releaseCaps_tandyClk (s : State) : (releaseCaps s).tandyClk = s.tandyClk := rfl
@[simp] theorem releaseCaps_tandyData (s : State) : (releaseCaps s).tandyData = s.tandyData := rfl
@[simp] theorem releaseCaps_serOut (s : State) : (releaseCaps s).serOut = s.serOut := rfl
@[simp] theorem releaseCaps_params (s : State) : (releaseCaps s).params = s.params := rfl
@[simp] theorem releaseCaps_takePending (s : State) : (releaseCaps s).takePending = s.takePending := rfl
@[simp] theorem releaseCaps_events (s : State) : (releaseCaps s).events = s.events := rfl
@[simp] theorem releaseCaps_trace (s : State) : (releaseCaps s).trace = s.trace := rfl

/-! ### `pressShift` -/

@[simp] theorem pressShift_rxWin (b : ModField) (s : State) : (pressShift b s).rxWin = s.rxWin := rfl
@[simp] theorem pressShift_mbxByte (b : ModField) (s : State) : (pressShift b s).mbxByte = s.mbxByte := rfl
@[simp] theorem pressShift_mbxReady (b : ModField) (s : State) : (pressShift b s).mbxReady = s.mbxReady := rfl
@[simp] theorem pressShift_hist1 (b : ModField) (s : State) : (pressShift b s).hist1 = s.hist1 := rfl
@[simp] theorem pressShift_hist2 (b : ModField) (s : State) : (pressShift b s).hist2 = s.hist2 := rfl
@[simp] theorem pressShift_modShift (b : ModField) (s : State) : (pressShift b s).modShift = setBits s.modShift b := rfl
@[simp] theorem pressShift_modCtrl (b : ModField) (s : State) : (pressShift b s).modCtrl = s.modCtrl := rfl
@[simp] theorem pressShift_modAlt (b : ModField) (s : State) : (pressShift b s).modAlt = s.modAlt := rfl
@[simp] theorem pressShift_modCaps (b : ModField) (s : State) : (pressShift b s).modCaps = s.modCaps := rfl
@[simp] theorem pressShift_rbMem (b : ModField) (s : State) : (pressShift b s).rbMem = s.rbMem := rfl
@[simp] theorem pressShift_rbIn (b : ModField) (s : State) : (pressShift b s).rbIn = s.rbIn := rfl
@[simp] theorem pressShift_rbOut (b : ModField) (s : State) : (pressShift b s).rbOut = s.rbOut := rfl
@[simp] theorem pressShift_txCount (b : ModField) (s : State) : (pressShift b s).txCount = s.txCount := rfl
@[simp] theorem pressShift_txSr (b : ModField) (s : State) : (pressShift b s).txSr = s.txSr := rfl
@[simp] theorem pressShift_tandyClk (b : ModField) (s : State) : (pressShift b s).tandyClk = s.tandyClk := rfl
@[simp] theorem pressShift_tandyData (b : ModField) (s : State) : (pressShift b s).tandyData = s.tandyData := rfl
@[simp] theorem pressShift_serOut (b : ModField) (s : State) : (pressShift b s).serOut = s.serOut := rfl
@[simp] theorem pressShift_params (b : ModField) (s : State) : (pressShift b s).params = s.params := rfl
@[simp] theorem pressShift_takePending (b : ModField) (s : State) : (pressShift b s).takePending = s.takePending := rfl
@[simp] theorem pressShift_events (b : ModField) (s : State) : (pressShift b s).events = s.events := rfl
@[simp] theorem pressShift_trace (b : ModField) (s : State) : (pressShift b s).trace = s.trace := rfl

/-! ### `pressCtrl` -/

@[simp] theorem pressCtrl_rxWin (b : ModField) (s : State) : (pressCtrl b s).rxWin = s.rxWin := rfl
@[simp] theorem pressCtrl_mbxByte (b : ModField) (s : State) : (pressCtrl b s).mbxByte = s.mbxByte := rfl
@[simp] theorem pressCtrl_mbxReady (b : ModField) (s : State) : (pressCtrl b s).mbxReady = s.mbxReady := rfl
@[simp] theorem pressCtrl_hist1 (b : ModField) (s : State) : (pressCtrl b s).hist1 = s.hist1 := rfl
@[simp] theorem pressCtrl_hist2 (b : ModField) (s : State) : (pressCtrl b s).hist2 = s.hist2 := rfl
@[simp] theorem pressCtrl_modShift (b : ModField) (s : State) : (pressCtrl b s).modShift = s.modShift := rfl
@[simp] theorem pressCtrl_modCtrl (b : ModField) (s : State) : (pressCtrl b s).modCtrl = setBits s.modCtrl b := rfl
@[simp] theorem pressCtrl_modAlt (b : ModField) (s : State) : (pressCtrl b s).modAlt = s.modAlt := rfl
@[simp] theorem pressCtrl_modCaps (b : ModField) (s : State) : (pressCtrl b s).modCaps = s.modCaps := rfl
@[simp] theorem pressCtrl_rbMem (b : ModField) (s : State) : (pressCtrl b s).rbMem = s.rbMem := rfl
@[simp] theorem pressCtrl_rbIn (b : ModField) (s : State) : (pressCtrl b s).rbIn = s.rbIn := rfl
@[simp] theorem pressCtrl_rbOut (b : ModField) (s : State) : (pressCtrl b s).rbOut = s.rbOut := rfl
@[simp] theorem pressCtrl_txCount (b : ModField) (s : State) : (pressCtrl b s).txCount = s.txCount := rfl
@[simp] theorem pressCtrl_txSr (b : ModField) (s : State) : (pressCtrl b s).txSr = s.txSr := rfl
@[simp] theorem pressCtrl_tandyClk (b : ModField) (s : State) : (pressCtrl b s).tandyClk = s.tandyClk := rfl
@[simp] theorem pressCtrl_tandyData (b : ModField) (s : State) : (pressCtrl b s).tandyData = s.tandyData := rfl
@[simp] theorem pressCtrl_serOut (b : ModField) (s : State) : (pressCtrl b s).serOut = s.serOut := rfl
@[simp] theorem pressCtrl_params (b : ModField) (s : State) : (pressCtrl b s).params = s.params := rfl
@[simp] theorem pressCtrl_takePending (b : ModField) (s : State) : (pressCtrl b s).takePending = s.takePending := rfl
@[simp] theorem pressCtrl_events (b : ModField) (s : State) : (pressCtrl b s).events = s.events := rfl
@[simp] theorem pressCtrl_trace (b : ModField) (s : State) : (pressCtrl b s).trace = s.trace := rfl

/-! ### `pressAlt` -/

@[simp] theorem pressAlt_rxWin (b : ModField) (s : State) : (pressAlt b s).rxWin = s.rxWin := rfl
@[simp] theorem pressAlt_mbxByte (b : ModField) (s : State) : (pressAlt b s).mbxByte = s.mbxByte := rfl
@[simp] theorem pressAlt_mbxReady (b : ModField) (s : State) : (pressAlt b s).mbxReady = s.mbxReady := rfl
@[simp] theorem pressAlt_hist1 (b : ModField) (s : State) : (pressAlt b s).hist1 = s.hist1 := rfl
@[simp] theorem pressAlt_hist2 (b : ModField) (s : State) : (pressAlt b s).hist2 = s.hist2 := rfl
@[simp] theorem pressAlt_modShift (b : ModField) (s : State) : (pressAlt b s).modShift = s.modShift := rfl
@[simp] theorem pressAlt_modCtrl (b : ModField) (s : State) : (pressAlt b s).modCtrl = s.modCtrl := rfl
@[simp] theorem pressAlt_modAlt (b : ModField) (s : State) : (pressAlt b s).modAlt = setBits s.modAlt b := rfl
@[simp] theorem pressAlt_modCaps (b : ModField) (s : State) : (pressAlt b s).modCaps = s.modCaps := rfl
@[simp] theorem pressAlt_rbMem (b : ModField) (s : State) : (pressAlt b s).rbMem = s.rbMem := rfl
@[simp] theorem pressAlt_rbIn (b : ModField) (s : State) : (pressAlt b s).rbIn = s.rbIn := rfl
@[simp] theorem pressAlt_rbOut (b : ModField) (s : State) : (pressAlt b s).rbOut = s.rbOut := rfl
@[simp] theorem pressAlt_txCount (b : ModField) (s : State) : (pressAlt b s).txCount = s.txCount := rfl
@[simp] theorem pressAlt_txSr (b : ModField) (s : State) : (pressAlt b s).txSr = s.txSr := rfl
@[simp] theorem pressAlt_tandyClk (b : ModField) (s : State) : (pressAlt b s).tandyClk = s.tandyClk := rfl
@[simp] theorem pressAlt_tandyData (b : ModField) (s : State) : (pressAlt b s).tandyData = s.tandyData := rfl
@[simp] theorem pressAlt_serOut (b : ModField) (s : State) : (pressAlt b s).serOut = s.serOut := rfl
@[simp] theorem pressAlt_params (b : ModField) (s : State) : (pressAlt b s).params = s.params := rfl
@[simp] theorem pressAlt_takePending (b : ModField) (s : State) : (pressAlt b s).takePending = s.takePending := rfl
@[simp] theorem pressAlt_events (b : ModField) (s : State) : (pressAlt b s).events = s.events := rfl
@[simp] theorem pressAlt_trace (b : ModField) (s : State) : (pressAlt b s).trace = s.trace := rfl

/-! ### `pressCaps` -/

@[simp] theorem pressCaps_rxWin (s : State) : (pressCaps s).rxWin = s.rxWin := rfl
@[simp] theorem pressCaps_mbxByte (s : State) : (pressCaps s).mbxByte = s.mbxByte := rfl
@[simp] theorem pressCaps_mbxReady (s : State) : (pressCaps s).mbxReady = s.mbxReady := rfl
@[simp] theorem pressCaps_hist1 (s : State) : (pressCaps s).hist1 = s.hist1 := rfl
@[simp] theorem pressCaps_hist2 (s : State) : (pressCaps s).hist2 = s.hist2 := rfl
@[simp] theorem pressCaps_modShift (s : State) : (pressCaps s).modShift = s.modShift := rfl
@[simp] theorem pressCaps_modCtrl (s : State) : (pressCaps s).modCtrl = s.modCtrl := rfl
@[simp] theorem pressCaps_modAlt (s : State) : (pressCaps s).modAlt = s.modAlt := rfl
@[simp] theorem pressCaps_modCaps (s : State) : (pressCaps s).modCaps = capsPress s.modCaps := rfl
@[simp] theorem pressCaps_rbMem (s : State) : (pressCaps s).rbMem = s.rbMem := rfl
@[simp] theorem pressCaps_rbIn (s : State) : (pressCaps s).rbIn = s.rbIn := rfl
@[simp] theorem pressCaps_rbOut (s : State) : (pressCaps s).rbOut = s.rbOut := rfl
@[simp] theorem pressCaps_txCount (s : State) : (pressCaps s).txCount = s.txCount := rfl
@[simp] theorem pressCaps_txSr (s : State) : (pressCaps s).txSr = s.txSr := rfl
@[simp] theorem pressCaps_tandyClk (s : State) : (pressCaps s).tandyClk = s.tandyClk := rfl
@[simp] theorem pressCaps_tandyData (s : State) : (pressCaps s).tandyData = s.tandyData := rfl
@[simp] theorem pressCaps_serOut (s : State) : (pressCaps s).serOut = s.serOut := rfl
@[simp] theorem pressCaps_params (s : State) : (pressCaps s).params = s.params := rfl
@[simp] theorem pressCaps_takePending (s : State) : (pressCaps s).takePending = s.takePending := rfl
@[simp] theorem pressCaps_events (s : State) : (pressCaps s).events = s.events := rfl
@[simp] theorem pressCaps_trace (s : State) : (pressCaps s).trace = s.trace := rfl

/-! ### `pushEvent` -/

@[simp] theorem pushEvent_rxWin (e : Event) (s : State) : (pushEvent e s).rxWin = s.rxWin := rfl
@[simp] theorem pushEvent_mbxByte (e : Event) (s : State) : (pushEvent e s).mbxByte = s.mbxByte := rfl
@[simp] theorem pushEvent_mbxReady (e : Event) (s : State) : (pushEvent e s).mbxReady = s.mbxReady := rfl
@[simp] theorem pushEvent_hist1 (e : Event) (s : State) : (pushEvent e s).hist1 = s.hist1 := rfl
@[simp] theorem pushEvent_hist2 (e : Event) (s : State) : (pushEvent e s).hist2 = s.hist2 := rfl
@[simp] theorem pushEvent_modShift (e : Event) (s : State) : (pushEvent e s).modShift = s.modShift := rfl
@[simp] theorem pushEvent_modCtrl (e : Event) (s : State) : (pushEvent e s).modCtrl = s.modCtrl := rfl
@[simp] theorem pushEvent_modAlt (e : Event) (s : State) : (pushEvent e s).modAlt = s.modAlt := rfl
@[simp] theorem pushEvent_modCaps (e : Event) (s : State) : (pushEvent e s).modCaps = s.modCaps := rfl
@[simp] theorem pushEvent_rbMem (e : Event) (s : State) : (pushEvent e s).rbMem = s.rbMem := rfl
@[simp] theorem pushEvent_rbIn (e : Event) (s : State) : (pushEvent e s).rbIn = s.rbIn := rfl
@[simp] theorem pushEvent_rbOut (e : Event) (s : State) : (pushEvent e s).rbOut = s.rbOut := rfl
@[simp] theorem pushEvent_txCount (e : Event) (s : State) : (pushEvent e s).txCount = s.txCount := rfl
@[simp] theorem pushEvent_txSr (e : Event) (s : State) : (pushEvent e s).txSr = s.txSr := rfl
@[simp] theorem pushEvent_tandyClk (e : Event) (s : State) : (pushEvent e s).tandyClk = s.tandyClk := rfl
@[simp] theorem pushEvent_tandyData (e : Event) (s : State) : (pushEvent e s).tandyData = s.tandyData := rfl
@[simp] theorem pushEvent_serOut (e : Event) (s : State) : (pushEvent e s).serOut = s.serOut := rfl
@[simp] theorem pushEvent_params (e : Event) (s : State) : (pushEvent e s).params = s.params := rfl
@[simp] theorem pushEvent_takePending (e : Event) (s : State) : (pushEvent e s).takePending = s.takePending := rfl
@[simp] theorem pushEvent_events (e : Event) (s : State) : (pushEvent e s).events = e :: s.events := rfl
@[simp] theorem pushEvent_trace (e : Event) (s : State) : (pushEvent e s).trace = s.trace := rfl

/-! ### `mbxPut` -/

@[simp] theorem mbxPut_rxWin (v : Byte) (s : State) : (mbxPut v s).rxWin = s.rxWin := by unfold mbxPut; split <;> rfl
@[simp] theorem mbxPut_mbxByte (v : Byte) (s : State) : (mbxPut v s).mbxByte = v := rfl
@[simp] theorem mbxPut_mbxReady (v : Byte) (s : State) : (mbxPut v s).mbxReady = true := rfl
@[simp] theorem mbxPut_hist1 (v : Byte) (s : State) : (mbxPut v s).hist1 = s.hist1 := by unfold mbxPut; split <;> rfl
@[simp] theorem mbxPut_hist2 (v : Byte) (s : State) : (mbxPut v s).hist2 = s.hist2 := by unfold mbxPut; split <;> rfl
@[simp] theorem mbxPut_modShift (v : Byte) (s : State) : (mbxPut v s).modShift = s.modShift := by unfold mbxPut; split <;> rfl
@[simp] theorem mbxPut_modCtrl (v : Byte) (s : State) : (mbxPut v s).modCtrl = s.modCtrl := by unfold mbxPut; split <;> rfl
@[simp] theorem mbxPut_modAlt (v : Byte) (s : State) : (mbxPut v s).modAlt = s.modAlt := by unfold mbxPut; split <;> rfl
@[simp] theorem mbxPut_modCaps (v : Byte) (s : State) : (mbxPut v s).modCaps = s.modCaps := by unfold mbxPut; split <;> rfl
@[simp] theorem mbxPut_rbMem (v : Byte) (s : State) : (mbxPut v s).rbMem = s.rbMem := by unfold mbxPut; split <;> rfl
@[simp] theorem mbxPut_rbIn (v : Byte) (s : State) : (mbxPut v s).rbIn = s.rbIn := by unfold mbxPut; split <;> rfl
@[simp] theorem mbxPut_rbOut (v : Byte) (s : State) : (mbxPut v s).rbOut = s.rbOut := by unfold mbxPut; split <;> rfl
@[simp] theorem mbxPut_txCount (v : Byte) (s : State) : (mbxPut v s).txCount = s.txCount := by unfold mbxPut; split <;> rfl
@[simp] theorem mbxPut_txSr (v : Byte) (s : State) : (mbxPut v s).txSr = s.txSr := by unfold mbxPut; split <;> rfl
@[simp] theorem mbxPut_tandyClk (v : Byte) (s : State) : (mbxPut v s).tandyClk = s.tandyClk := by unfold mbxPut; split <;> rfl
@[simp] theorem mbxPut_tandyData (v : Byte) (s : State) : (mbxPut v s).tandyData = s.tandyData := by unfold mbxPut; split <;> rfl
@[simp] theorem mbxPut_serOut (v : Byte) (s : State) : (mbxPut v s).serOut = s.serOut := by unfold mbxPut; split <;> rfl
@[simp] theorem mbxPut_params (v : Byte) (s : State) : (mbxPut v s).params = s.params := by unfold mbxPut; split <;> rfl
@[simp] theorem mbxPut_takePending (v : Byte) (s : State) : (mbxPut v s).takePending = s.takePending := by unfold mbxPut; split <;> rfl
@[simp] theorem mbxPut_events (v : Byte) (s : State) : (mbxPut v s).events = s.events := by unfold mbxPut; split <;> rfl
@[simp] theorem mbxPut_trace (v : Byte) (s : State) : (mbxPut v s).trace = if s.mbxReady then .eMbxOverwrite s.mbxByte :: s.trace else s.trace := by unfold mbxPut; split <;> rfl

/-! ### `mbxTake` -/

@[simp] theorem mbxTake_rxWin (s : State) : (mbxTake s).2.rxWin = s.rxWin := by unfold mbxTake; split <;> rfl
@[simp] theorem mbxTake_mbxByte (s : State) : (mbxTake s).2.mbxByte = s.mbxByte := by unfold mbxTake; split <;> rfl
@[simp] theorem mbxTake_mbxReady (s : State) : (mbxTake s).2.mbxReady = false := by unfold mbxTake; split <;> simp_all
@[simp] theorem mbxTake_hist1 (s : State) : (mbxTake s).2.hist1 = s.hist1 := by unfold mbxTake; split <;> rfl
@[simp] theorem mbxTake_hist2 (s : State) : (mbxTake s).2.hist2 = s.hist2 := by unfold mbxTake; split <;> rfl
@[simp] theorem mbxTake_modShift (s : State) : (mbxTake s).2.modShift = s.modShift := by unfold mbxTake; split <;> rfl
@[simp] theorem mbxTake_modCtrl (s : State) : (mbxTake s).2.modCtrl = s.modCtrl := by unfold mbxTake; split <;> rfl
@[simp] theorem mbxTake_modAlt (s : State) : (mbxTake s).2.modAlt = s.modAlt := by unfold mbxTake; split <;> rfl
@[simp] theorem mbxTake_modCaps (s : State) : (mbxTake s).2.modCaps = s.modCaps := by unfold mbxTake; split <;> rfl
@[simp] theorem mbxTake_rbMem (s : State) : (mbxTake s).2.rbMem = s.rbMem := by unfold mbxTake; split <;> rfl
@[simp] theorem mbxTake_rbIn (s : State) : (mbxTake s).2.rbIn = s.rbIn := by unfold mbxTake; split <;> rfl
@[simp] theorem mbxTake_rbOut (s : State) : (mbxTake s).2.rbOut = s.rbOut := by unfold mbxTake; split <;> rfl
@[simp] theorem mbxTake_txCount (s : State) : (mbxTake s).2.txCount = s.txCount := by unfold mbxTake; split <;> rfl
@[simp] theorem mbxTake_txSr (s : State) : (mbxTake s).2.txSr = s.txSr := by unfold mbxTake; split <;> rfl
@[simp] theorem mbxTake_tandyClk (s : State) : (mbxTake s).2.tandyClk = s.tandyClk := by unfold mbxTake; split <;> rfl
@[simp] theorem mbxTake_tandyData (s : State) : (mbxTake s).2.tandyData = s.tandyData := by unfold mbxTake; split <;> rfl
@[simp] theorem mbxTake_serOut (s : State) : (mbxTake s).2.serOut = s.serOut := by unfold mbxTake; split <;> rfl
@[simp] theorem mbxTake_params (s : State) : (mbxTake s).2.params = s.params := by unfold mbxTake; split <;> rfl
@[simp] theorem mbxTake_takePending (s : State) : (mbxTake s).2.takePending = s.takePending := by unfold mbxTake; split <;> rfl
@[simp] theorem mbxTake_events (s : State) : (mbxTake s).2.events = s.events := by unfold mbxTake; split <;> rfl
@[simp] theorem mbxTake_trace (s : State) : (mbxTake s).2.trace = s.trace := by unfold mbxTake; split <;> rfl

/-! ### `acceptWindow` -/

@[simp] theorem acceptWindow_rxWin (w : Window) (s : State) : (acceptWindow w s).rxWin = 0#11 := by simp [acceptWindow]
@[simp] theorem acceptWindow_mbxByte (w : Window) (s : State) : (acceptWindow w s).mbxByte = rxByte w := by simp [acceptWindow]
@[simp] theorem acceptWindow_mbxReady (w : Window) (s : State) : (acceptWindow w s).mbxReady = true := by simp [acceptWindow]
@[simp] theorem acceptWindow_hist1 (w : Window) (s : State) : (acceptWindow w s).hist1 = s.hist1 := by simp [acceptWindow]
@[simp] theorem acceptWindow_hist2 (w : Window) (s : State) : (acceptWindow w s).hist2 = s.hist2 := by simp [acceptWindow]
@[simp] theorem acceptWindow_modShift (w : Window) (s : State) : (acceptWindow w s).modShift = s.modShift := by simp [acceptWindow]
@[simp] theorem acceptWindow_modCtrl (w : Window) (s : State) : (acceptWindow w s).modCtrl = s.modCtrl := by simp [acceptWindow]
@[simp] theorem acceptWindow_modAlt (w : Window) (s : State) : (acceptWindow w s).modAlt = s.modAlt := by simp [acceptWindow]
@[simp] theorem acceptWindow_modCaps (w : Window) (s : State) : (acceptWindow w s).modCaps = s.modCaps := by simp [acceptWindow]
@[simp] theorem acceptWindow_rbMem (w : Window) (s : State) : (acceptWindow w s).rbMem = s.rbMem := by simp [acceptWindow]
@[simp] theorem acceptWindow_rbIn (w : Window) (s : State) : (acceptWindow w s).rbIn = s.rbIn := by simp [acceptWindow]
@[simp] theorem acceptWindow_rbOut (w : Window) (s : State) : (acceptWindow w s).rbOut = s.rbOut := by simp [acceptWindow]
@[simp] theorem acceptWindow_txCount (w : Window) (s : State) : (acceptWindow w s).txCount = s.txCount := by simp [acceptWindow]
@[simp] theorem acceptWindow_txSr (w : Window) (s : State) : (acceptWindow w s).txSr = s.txSr := by simp [acceptWindow]
@[simp] theorem acceptWindow_tandyClk (w : Window) (s : State) : (acceptWindow w s).tandyClk = s.tandyClk := by simp [acceptWindow]
@[simp] theorem acceptWindow_tandyData (w : Window) (s : State) : (acceptWindow w s).tandyData = s.tandyData := by simp [acceptWindow]
@[simp] theorem acceptWindow_serOut (w : Window) (s : State) : (acceptWindow w s).serOut = s.serOut := by simp [acceptWindow]
@[simp] theorem acceptWindow_params (w : Window) (s : State) : (acceptWindow w s).params = s.params := by simp [acceptWindow]
@[simp] theorem acceptWindow_takePending (w : Window) (s : State) : (acceptWindow w s).takePending = s.takePending := by simp [acceptWindow]
@[simp] theorem acceptWindow_events (w : Window) (s : State) : (acceptWindow w s).events = s.events := by simp [acceptWindow]
@[simp] theorem acceptWindow_trace (w : Window) (s : State) : (acceptWindow w s).trace = if s.mbxReady then .eMbxOverwrite s.mbxByte :: s.trace else s.trace := by simp [acceptWindow]

end Sys2Proof.Machine
end

