-- ==== Sys2Proof/Laws/Ops.lean ====
section
/-! SUPPORT. One lemma for each shared operation, saying once everything it can do, so that proofs cite it and do not unfold
the operation; and one inversion lemma for each path of the translator and for the step. -/

namespace Sys2Proof.Machine

/-! ### Mailbox -/

theorem mbxTake_cases (s : State) :
    (s.mbxReady = true ∧ mbxTake s = (some s.mbxByte, { s with mbxReady := false })) ∨
    (s.mbxReady = false ∧ mbxTake s = (none, s)) := by
  unfold mbxTake
  by_cases h : s.mbxReady = true
  · exact .inl ⟨h, by simp [h]⟩
  · exact .inr ⟨by simpa using h, by simp [h]⟩

/-! ### Ring buffer -/

theorem rbPush_cases (v : Byte) (s : State) :
    (s.rbIn + 1#4 = s.rbOut ∧ rbPush v s = (false, s)) ∨
    (s.rbIn + 1#4 ≠ s.rbOut ∧
      rbPush v s = (true, { s with rbMem := rbWrite s.rbMem s.rbIn v, rbIn := s.rbIn + 1#4 })) := by
  unfold rbPush
  split
  · exact .inl ⟨‹_›, rfl⟩
  · exact .inr ⟨‹_›, rfl⟩

theorem rbPush2_cases (v1 v2 : Byte) (s : State) :
    (14#4 ≤ rbCount s ∧ rbPush2 v1 v2 s = (false, s)) ∨
    (¬ 14#4 ≤ rbCount s ∧ rbPush2 v1 v2 s = (true,
      { s with rbMem := rbWrite (rbWrite s.rbMem s.rbIn v1) (s.rbIn + 1#4) v2, rbIn := s.rbIn + 2#4 })) := by
  unfold rbPush2
  split
  · exact .inl ⟨‹_›, rfl⟩
  · exact .inr ⟨‹_›, rfl⟩

theorem rbPop_cases (s : State) :
    (s.rbIn = s.rbOut ∧ rbPop s = (none, s)) ∨
    (s.rbIn ≠ s.rbOut ∧ rbPop s = (some (rbRead s.rbMem s.rbOut), { s with rbOut := s.rbOut + 1#4 })) := by
  unfold rbPop
  split
  · exact .inl ⟨‹_›, rfl⟩
  · exact .inr ⟨‹_›, rfl⟩

theorem emit_cases (v : Byte) (s : State) :
    (s.rbIn + 1#4 = s.rbOut ∧ emit v s = note (.eRbFull [v]) s) ∨
    (s.rbIn + 1#4 ≠ s.rbOut ∧ emit v s = { s with rbMem := rbWrite s.rbMem s.rbIn v, rbIn := s.rbIn + 1#4 }) := by
  rcases rbPush_cases v s with ⟨h, e⟩ | ⟨h, e⟩
  · exact .inl ⟨h, by simp [emit, e]⟩
  · exact .inr ⟨h, by simp [emit, e]⟩

theorem emit2_cases (v1 v2 : Byte) (s : State) :
    (14#4 ≤ rbCount s ∧ emit2 v1 v2 s = note (.eRbFull [v1, v2]) s) ∨
    (¬ 14#4 ≤ rbCount s ∧ emit2 v1 v2 s =
      { s with rbMem := rbWrite (rbWrite s.rbMem s.rbIn v1) (s.rbIn + 1#4) v2, rbIn := s.rbIn + 2#4 }) := by
  rcases rbPush2_cases v1 v2 s with ⟨h, e⟩ | ⟨h, e⟩
  · exact .inl ⟨h, by simp [emit2, e]⟩
  · exact .inr ⟨h, by simp [emit2, e]⟩

/-! ### Translator -/

/-- A release touches ModifierState alone. -/
theorem releasePath_cases (key : Key) (s : State) :
    ∃ sh ct al ca, releasePath key s = { s with modShift := sh, modCtrl := ct, modAlt := al, modCaps := ca } := by
  unfold releasePath
  simp only []
  repeat' split
  all_goals exact ⟨_, _, _, _, rfl⟩

/-- A press that is not in the table touches ModifierState alone, or raises `E_UNKNOWN_KEY`. -/
theorem unlistedPath_cases (key : Key) (s : State) :
    (∃ sh ct al ca, unlistedPath key s = { s with modShift := sh, modCtrl := ct, modAlt := al, modCaps := ca }) ∨
    (key ∉ s.params.mods.toList ∧ unlistedPath key s = note (.eUnknownKey key) s) := by
  unfold unlistedPath
  simp only []
  by_cases h : key ∈ s.params.mods.toList
  · left
    simp only [ModCodes.toList, List.mem_cons, List.not_mem_nil, or_false] at h
    repeat' split
    all_goals first
      | exact ⟨_, _, _, _, rfl⟩
      | (exfalso; simp_all)
  · right
    refine ⟨h, ?_⟩
    simp only [ModCodes.toList, List.mem_cons, List.not_mem_nil, or_false, not_or] at h
    simp [h]

/-- A press emits the pair or one byte of the entry found, or goes the way of an unlisted key. -/
theorem pressPath_cases (key : Key) (s : State) :
    (∃ i e, lookup s.params.table.keymap key = some (i, e) ∧ inFkeyRange s.params.table i = true ∧ select s i = .alt ∧
      pressPath key s = emitFkey i e s) ∨
    (∃ i e, lookup s.params.table.keymap key = some (i, e) ∧
      ¬ (inFkeyRange s.params.table i = true ∧ select s i = .alt) ∧ pressPath key s = emitEntry i e s) ∨
    (lookup s.params.table.keymap key = none ∧ pressPath key s = unlistedPath key s) := by
  unfold pressPath
  rcases h : lookup s.params.table.keymap key with _ | ⟨i, e⟩
  · exact .inr (.inr ⟨rfl, rfl⟩)
  · by_cases c : inFkeyRange s.params.table i = true ∧ select s i = .alt
    · exact .inl ⟨i, e, rfl, c.1, c.2, by simp [c.1, c.2]⟩
    · have c' : ¬ (inFkeyRange s.params.table i && decide (select s i = .alt)) = true := by simpa using c
      exact .inr (.inl ⟨i, e, rfl, c, if_neg c'⟩)

/-- `SELECT` picks `alt` for one entry exactly where it picks it for every entry (R123). -/
theorem select_eq_alt (s : State) (i : Nat) : select s i = .alt ↔ altSelected s = true := by
  unfold select altSelected
  cases modActive s.modCtrl <;> cases modActive s.modAlt <;> cases modActive s.modShift <;>
    cases (isLetter i && capsActive s.modCaps) <;> decide

/-- A pass over a consumed byte: its case, then the history. -/
theorem translate_cases (b : Byte) (s : State) :
    ((b = pfxEscape ∨ b = pfxRelease) ∧ translate b s = historyUpdate b s) ∨
    (b ≠ pfxEscape ∧ b ≠ pfxRelease ∧ s.hist1 = pfxRelease ∧
      translate b s = historyUpdate b (releasePath (formKey s b) s)) ∨
    (b ≠ pfxEscape ∧ b ≠ pfxRelease ∧ s.hist1 ≠ pfxRelease ∧
      translate b s = historyUpdate b (pressPath (formKey s b) s)) := by
  unfold translate
  by_cases h1 : b = pfxEscape
  · exact .inl ⟨.inl h1, by simp [h1]⟩
  · by_cases h2 : b = pfxRelease
    · exact .inl ⟨.inr h2, by simp [h2]⟩
    · by_cases h3 : s.hist1 = pfxRelease
      · exact .inr (.inl ⟨h1, h2, h3, by simp [h1, h2, isRelease, h3]⟩)
      · exact .inr (.inr ⟨h1, h2, h3, by simp [h1, h2, isRelease, h3]⟩)

/-! ### Transmit engine -/

theorem launchByte_cases (s : State) :
    (s.rbIn = s.rbOut ∧ launchByte s = none) ∨
    (s.rbIn ≠ s.rbOut ∧ launchByte s = some { s with
      rbOut := s.rbOut + 1#4
      txSr := rbRead s.rbMem s.rbOut
      tandyClk := (s.params.wave.get 0).clk.level Config.startBit s.tandyClk
      tandyData := (s.params.wave.get 0).data.level Config.startBit s.tandyData
      serOut := false
      txCount := 1
      trace := .launch (rbRead s.rbMem s.rbOut) :: s.trace }) := by
  rcases rbPop_cases s with ⟨h, e⟩ | ⟨h, e⟩
  · exact .inl ⟨h, by simp [launchByte, e]⟩
  · exact .inr ⟨h, by simp [launchByte, e, note, applySlot]⟩

/-- The tick in Idle: hold, or the launch of the oldest byte. -/
theorem idleTick_cases (r : Bool) (s : State) :
    (canLaunch s r = false ∧ idleTick r s = s) ∨
    (r = true ∧ s.rbIn ≠ s.rbOut ∧ launchByte s = some (idleTick r s)) := by
  unfold idleTick
  by_cases h : canLaunch s r = true
  · right
    obtain ⟨h1, h2⟩ : s.rbIn ≠ s.rbOut ∧ r = true := by simpa [canLaunch] using h
    rcases launchByte_cases s with ⟨h3, _⟩ | ⟨_, e⟩
    · exact absurd h3 h1
    · exact ⟨h2, h1, by simp [h, e]⟩
  · exact .inl ⟨by simpa using h, by simp [h]⟩

/-- What a tick in an active slot writes: the latches, the shift register and the counter. -/
theorem activeTick_eq (s : State) :
    activeTick s = { s with
      serOut :=
        if bitpos s.txCount = 9 ∧ phase s.txCount = 0 then true
        else if isDataSlot s.txCount = true ∧ phase s.txCount = 0 then txBit s else s.serOut
      tandyClk := (s.params.wave.get s.txCount).clk.level (txBit s) s.tandyClk
      tandyData := (s.params.wave.get s.txCount).data.level (txBit s) s.tandyData
      txSr := if isDataSlot s.txCount = true ∧ phase s.txCount = 3 then s.txSr >>> 1 else s.txSr
      txCount := nextCount s.txCount } := by
  unfold activeTick
  by_cases h1 : bitpos s.txCount = 9 <;> by_cases h2 : phase s.txCount = 0 <;>
    by_cases h3 : phase s.txCount = 3 <;> cases h4 : isDataSlot s.txCount <;>
    simp_all [applySlot]

/-! ### The step -/

/-- A step runs the operation of the next event, or nothing where none is queued. -/
theorem step_cases (s : State) :
    (s.events = [] ∧ step s = .next s) ∨
    (∃ e rest, s.events = e :: rest ∧ step s = exec (eventInstr e) { s with events := rest }) := by
  unfold step takeEvent
  rcases h : s.events with _ | ⟨e, rest⟩
  · exact .inl ⟨rfl, rfl⟩
  · exact .inr ⟨e, rest, rfl, rfl⟩

end Sys2Proof.Machine
end

