-- ==== Sys2Proof/Laws/PerInstr.lean ====
section
/-! SUPPORT. The family `OpcodeRow`, one lemma for each constructor: with the default modifier codes, the word the encoder
gives an operation lies in that operation's row of `opcode_table.json` (its `mask` and `match`, transcribed below), and an
operation whose row has no pattern has no decoded word. It holds the encoder against the table, row by row. -/

namespace Sys2Proof.Laws

/-- The bits of a decoded word, numbered as the table numbers them. -/
def wordBits (w : CodeWord) : Option (BitVec 11) :=
  match w with
  | .ps2win w => some w
  | .xkey w => some (w.setWidth 11)
  | .txslot w => some (w.setWidth 11)
  | .line _ => none

/-- `mask` and `match` of the operation's row in `opcode_table.json`; for a mnemonic with several rows, those of the row its
operand selects. -/
def rowPattern (i : Instr) : Option (BitVec 11 × BitVec 11) :=
  match i with
  | .rxShift _ _ _ => some (0x001#11, 0x000#11)
  | .rxAccept _ _ => some (0x401#11, 0x001#11)
  | .rxReject _ _ => some (0x401#11, 0x401#11)
  | .xlIdle => none
  | .xlPfxE0 _ _ => some (0x0FF#11, 0x0E0#11)
  | .xlPfxF0 _ _ => some (0x0FF#11, 0x0F0#11)
  | .xlRelLshift => some (0x3FF#11, 0x212#11)
  | .xlRelRshift => some (0x3FF#11, 0x259#11)
  | .xlRelLctrl => some (0x3FF#11, 0x214#11)
  | .xlRelRctrl => some (0x3FF#11, 0x314#11)
  | .xlRelLalt => some (0x3FF#11, 0x211#11)
  | .xlRelRalt => some (0x3FF#11, 0x311#11)
  | .xlRelCaps => some (0x3FF#11, 0x258#11)
  | .xlRelOther _ _ => some (0x200#11, 0x200#11)
  | .xlPrsKey _ _ => some (0x200#11, 0x000#11)
  | .xlPrsFkeyAlt _ _ => some (0x200#11, 0x000#11)
  | .xlPrsLshift => some (0x3FF#11, 0x012#11)
  | .xlPrsRshift => some (0x3FF#11, 0x059#11)
  | .xlPrsLctrl => some (0x3FF#11, 0x014#11)
  | .xlPrsRctrl => some (0x3FF#11, 0x114#11)
  | .xlPrsLalt => some (0x3FF#11, 0x011#11)
  | .xlPrsRalt => some (0x3FF#11, 0x111#11)
  | .xlPrsCaps => some (0x3FF#11, 0x058#11)
  | .xlPrsOther _ _ => some (0x200#11, 0x000#11)
  | .txIdleHold => some (0x3F#11, 0x00#11)
  | .txStart => some (0x3F#11, 0x00#11)
  | .txStartHold slot => some (0x3F#11, BitVec.ofNat 11 (1 + slot.val))
  | .txDataP0 bit => some (0x3F#11, BitVec.ofNat 11 (4 + 4 * bit.val))
  | .txDataP1 bit => some (0x3F#11, BitVec.ofNat 11 (5 + 4 * bit.val))
  | .txDataP2 bit => some (0x3F#11, BitVec.ofNat 11 (6 + 4 * bit.val))
  | .txDataP3 bit => some (0x3F#11, BitVec.ofNat 11 (7 + 4 * bit.val))
  | .txStopP0 => some (0x3F#11, 0x24#11)
  | .txStopP1 => some (0x3F#11, 0x25#11)
  | .txStopP2 => some (0x3F#11, 0x26#11)
  | .txStopP3 => some (0x3F#11, 0x27#11)
  | .mbxPut _ => none
  | .mbxTake => none
  | .rbPush _ => none
  | .rbPush2 _ _ => none
  | .rbPop => none
  | .rxEdge _ => none
  | .xlPoll => none
  | .txTick _ => none

/-- The masked bits of a word are the row's match; a word without decoded bits belongs to a row without a pattern. -/
abbrev InRow (i : Instr) (w : CodeWord) : Prop :=
  (wordBits w).map (fun b => b &&& ((rowPattern i).getD (0#11, 0#11)).1) = (rowPattern i).map Prod.snd

/-- The word of the operation lies in its row. -/
def OpcodeRow.Statement (i : Instr) : Prop :=
  ∀ (p : Params) (w : CodeWord), p.mods = ModCodes.default → encode p i = some w → InRow i w

/-- The start bit of a window under the mask of `RX_SHIFT`. -/
theorem ps2Word_mask_start (a b c : Bool) (d : Byte) : ps2Word a b d c &&& 0x001#11 = if c then 0x001#11 else 0x000#11 := by
  ext i hi
  cases c <;> interval_cases i <;> simp [ps2Word, bitAt_getElem]

/-- The start and stop bits of a window under the mask of `RX_ACCEPT` and `RX_REJECT`. -/
theorem ps2Word_mask_framing (a b : Bool) (d : Byte) :
    ps2Word a b d true &&& 0x401#11 = if a then 0x401#11 else 0x001#11 := by
  ext i hi
  cases a <;> interval_cases i <;> simp [ps2Word, bitAt_getElem]

/-- The release flag of an `XKEY` word under its mask. -/
theorem xkeyWord_mask_rel (r e : Bool) (b : Byte) :
    (xkeyWord r e b).setWidth 11 &&& 0x200#11 = if r then 0x200#11 else 0x000#11 := by
  ext i hi
  cases r <;> interval_cases i <;> simp [xkeyWord, bitAt_getElem]

/-- The byte of an `XKEY` word under the mask of the prefix rows. -/
theorem xkeyWord_mask_byte (r e : Bool) (b : Byte) :
    (xkeyWord r e b).setWidth 11 &&& 0x0FF#11 = b.setWidth 11 := by
  ext i hi
  interval_cases i <;> simp [xkeyWord, bitAt_getElem]

theorem OpcodeRow.rxShift (stop parity : Bool) (data : Byte) : OpcodeRow.Statement (.rxShift stop parity data) := by
  intro p w _ h
  simp only [encode, Option.some.injEq] at h
  subst h
  exact congrArg some (ps2Word_mask_start stop parity false data)

theorem OpcodeRow.rxAccept (parity : Bool) (data : Byte) : OpcodeRow.Statement (.rxAccept parity data) := by
  intro p w _ h
  simp only [encode, Option.some.injEq] at h
  subst h
  exact congrArg some (ps2Word_mask_framing false parity data)

theorem OpcodeRow.rxReject (parity : Bool) (data : Byte) : OpcodeRow.Statement (.rxReject parity data) := by
  intro p w _ h
  simp only [encode, Option.some.injEq] at h
  subst h
  exact congrArg some (ps2Word_mask_framing true parity data)

theorem OpcodeRow.xlIdle : OpcodeRow.Statement (.xlIdle) := by intro p w _ h; simp [encode] at h

theorem OpcodeRow.xlPfxE0 (rel esc : Bool) : OpcodeRow.Statement (.xlPfxE0 rel esc) := by
  intro p w _ h
  simp only [encode, Option.some.injEq] at h
  subst h
  exact congrArg some (xkeyWord_mask_byte rel esc pfxEscape)

theorem OpcodeRow.xlPfxF0 (rel esc : Bool) : OpcodeRow.Statement (.xlPfxF0 rel esc) := by
  intro p w _ h
  simp only [encode, Option.some.injEq] at h
  subst h
  exact congrArg some (xkeyWord_mask_byte rel esc pfxRelease)

theorem OpcodeRow.xlRelLshift : OpcodeRow.Statement (.xlRelLshift) := by
  intro p w hm h
  simp only [encode, hm, Option.some.injEq] at h
  subst h
  rfl

theorem OpcodeRow.xlRelRshift : OpcodeRow.Statement (.xlRelRshift) := by
  intro p w hm h
  simp only [encode, hm, Option.some.injEq] at h
  subst h
  rfl

theorem OpcodeRow.xlRelLctrl : OpcodeRow.Statement (.xlRelLctrl) := by
  intro p w hm h
  simp only [encode, hm, Option.some.injEq] at h
  subst h
  rfl

theorem OpcodeRow.xlRelRctrl : OpcodeRow.Statement (.xlRelRctrl) := by
  intro p w hm h
  simp only [encode, hm, Option.some.injEq] at h
  subst h
  rfl

theorem OpcodeRow.xlRelLalt : OpcodeRow.Statement (.xlRelLalt) := by
  intro p w hm h
  simp only [encode, hm, Option.some.injEq] at h
  subst h
  rfl

theorem OpcodeRow.xlRelRalt : OpcodeRow.Statement (.xlRelRalt) := by
  intro p w hm h
  simp only [encode, hm, Option.some.injEq] at h
  subst h
  rfl

theorem OpcodeRow.xlRelCaps : OpcodeRow.Statement (.xlRelCaps) := by
  intro p w hm h
  simp only [encode, hm, Option.some.injEq] at h
  subst h
  rfl

theorem OpcodeRow.xlRelOther (esc : Bool) (byte : Byte) : OpcodeRow.Statement (.xlRelOther esc byte) := by
  intro p w _ h
  simp only [encode, Option.some.injEq] at h
  subst h
  exact congrArg some (xkeyWord_mask_rel true esc byte)

theorem OpcodeRow.xlPrsKey (esc : Bool) (byte : Byte) : OpcodeRow.Statement (.xlPrsKey esc byte) := by
  intro p w _ h
  simp only [encode, Option.some.injEq] at h
  subst h
  exact congrArg some (xkeyWord_mask_rel false esc byte)

theorem OpcodeRow.xlPrsFkeyAlt (esc : Bool) (byte : Byte) : OpcodeRow.Statement (.xlPrsFkeyAlt esc byte) := by
  intro p w _ h
  simp only [encode, Option.some.injEq] at h
  subst h
  exact congrArg some (xkeyWord_mask_rel false esc byte)

theorem OpcodeRow.xlPrsLshift : OpcodeRow.Statement (.xlPrsLshift) := by
  intro p w hm h
  simp only [encode, hm, Option.some.injEq] at h
  subst h
  rfl

theorem OpcodeRow.xlPrsRshift : OpcodeRow.Statement (.xlPrsRshift) := by
  intro p w hm h
  simp only [encode, hm, Option.some.injEq] at h
  subst h
  rfl

theorem OpcodeRow.xlPrsLctrl : OpcodeRow.Statement (.xlPrsLctrl) := by
  intro p w hm h
  simp only [encode, hm, Option.some.injEq] at h
  subst h
  rfl

theorem OpcodeRow.xlPrsRctrl : OpcodeRow.Statement (.xlPrsRctrl) := by
  intro p w hm h
  simp only [encode, hm, Option.some.injEq] at h
  subst h
  rfl

theorem OpcodeRow.xlPrsLalt : OpcodeRow.Statement (.xlPrsLalt) := by
  intro p w hm h
  simp only [encode, hm, Option.some.injEq] at h
  subst h
  rfl

theorem OpcodeRow.xlPrsRalt : OpcodeRow.Statement (.xlPrsRalt) := by
  intro p w hm h
  simp only [encode, hm, Option.some.injEq] at h
  subst h
  rfl

theorem OpcodeRow.xlPrsCaps : OpcodeRow.Statement (.xlPrsCaps) := by
  intro p w hm h
  simp only [encode, hm, Option.some.injEq] at h
  subst h
  rfl

theorem OpcodeRow.xlPrsOther (esc : Bool) (byte : Byte) : OpcodeRow.Statement (.xlPrsOther esc byte) := by
  intro p w _ h
  simp only [encode, Option.some.injEq] at h
  subst h
  exact congrArg some (xkeyWord_mask_rel false esc byte)

theorem OpcodeRow.txIdleHold : OpcodeRow.Statement (.txIdleHold) := by
  intro p w _ h
  simp only [encode, Option.some.injEq] at h
  subst h
  rfl

theorem OpcodeRow.txStart : OpcodeRow.Statement (.txStart) := by
  intro p w _ h
  simp only [encode, Option.some.injEq] at h
  subst h
  rfl

theorem OpcodeRow.txStartHold (slot : Fin 3) : OpcodeRow.Statement (.txStartHold slot) := by
  intro p w _ h
  simp only [encode, Option.some.injEq] at h
  subst h
  revert slot
  decide

theorem OpcodeRow.txDataP0 (bit : Fin 8) : OpcodeRow.Statement (.txDataP0 bit) := by
  intro p w _ h
  simp only [encode, Option.some.injEq] at h
  subst h
  revert bit
  decide

theorem OpcodeRow.txDataP1 (bit : Fin 8) : OpcodeRow.Statement (.txDataP1 bit) := by
  intro p w _ h
  simp only [encode, Option.some.injEq] at h
  subst h
  revert bit
  decide

theorem OpcodeRow.txDataP2 (bit : Fin 8) : OpcodeRow.Statement (.txDataP2 bit) := by
  intro p w _ h
  simp only [encode, Option.some.injEq] at h
  subst h
  revert bit
  decide

theorem OpcodeRow.txDataP3 (bit : Fin 8) : OpcodeRow.Statement (.txDataP3 bit) := by
  intro p w _ h
  simp only [encode, Option.some.injEq] at h
  subst h
  revert bit
  decide

theorem OpcodeRow.txStopP0 : OpcodeRow.Statement (.txStopP0) := by
  intro p w _ h
  simp only [encode, Option.some.injEq] at h
  subst h
  rfl

theorem OpcodeRow.txStopP1 : OpcodeRow.Statement (.txStopP1) := by
  intro p w _ h
  simp only [encode, Option.some.injEq] at h
  subst h
  rfl

theorem OpcodeRow.txStopP2 : OpcodeRow.Statement (.txStopP2) := by
  intro p w _ h
  simp only [encode, Option.some.injEq] at h
  subst h
  rfl

theorem OpcodeRow.txStopP3 : OpcodeRow.Statement (.txStopP3) := by
  intro p w _ h
  simp only [encode, Option.some.injEq] at h
  subst h
  rfl

theorem OpcodeRow.mbxPut (v : Byte) : OpcodeRow.Statement (.mbxPut v) := by intro p w _ h; simp [encode] at h

theorem OpcodeRow.mbxTake : OpcodeRow.Statement (.mbxTake) := by intro p w _ h; simp [encode] at h

theorem OpcodeRow.rbPush (v : Byte) : OpcodeRow.Statement (.rbPush v) := by intro p w _ h; simp [encode] at h

theorem OpcodeRow.rbPush2 (v1 v2 : Byte) : OpcodeRow.Statement (.rbPush2 v1 v2) := by intro p w _ h; simp [encode] at h

theorem OpcodeRow.rbPop : OpcodeRow.Statement (.rbPop) := by intro p w _ h; simp [encode] at h

theorem OpcodeRow.rxEdge (d : Bool) : OpcodeRow.Statement (.rxEdge d) := by
  intro p w _ h
  simp only [encode, Option.some.injEq] at h
  subst h
  rfl

theorem OpcodeRow.xlPoll : OpcodeRow.Statement (.xlPoll) := by
  intro p w _ h
  simp only [encode, Option.some.injEq] at h
  subst h
  rfl

theorem OpcodeRow.txTick (r : Bool) : OpcodeRow.Statement (.txTick r) := by
  intro p w _ h
  simp only [encode, Option.some.injEq] at h
  subst h
  rfl

end Sys2Proof.Laws
end

