-- ==== Sys2Proof/Tests/Slice0.lean ====
section
/-! SUPPORT. Tests of this model: the refusals of WellFormed, the decoding of words written out from the encodings, single
steps whose expected values are the vectors of `95_test_vectors.md` (named in each comment), and, for every obligation that
has hypotheses, a witness that meets them. -/

namespace Sys2Proof.Tests

open Sys2Proof Sys2Proof.Machine

/-- A small state: reset values, the fixture's parameters, and sixteen zero cells (the cells' reset content is free). -/
def base : State where
  rxWin := 0#11
  mbxByte := 0x00#8
  mbxReady := false
  hist1 := 0x00#8
  hist2 := 0x00#8
  modShift := 0#2
  modCtrl := 0#2
  modAlt := 0#2
  modCaps := 0#2
  rbMem := (List.range 16).map (fun i => (i, 0x00#8))
  rbIn := 0#4
  rbOut := 0#4
  txCount := 0
  txSr := 0x00#8
  tandyClk := true
  tandyData := true
  serOut := true
  params := fixtureParams
  takePending := false
  events := []
  trace := []

/-- What a next state shows, none for a fault or a refusal. -/
def shows (o : Host.Outcome State Fault Refusal) {α : Type} (f : State → α) : Option α :=
  match o with
  | .next s => some (f s)
  | .fault _ => none
  | .refused _ => none

/-- A byte pending, with the two bytes before it. -/
def pending (h2 h1 b : Byte) : State := { base with mbxReady := true, mbxByte := b, hist1 := h1, hist2 := h2 }

/-- A ring with the given indices. -/
def ring (i o : RingIndex) : State := { base with rbIn := i, rbOut := o }

/-- The split take is asked for and a byte is pending. -/
def splitPending (b : Byte) : State :=
  { pending 0x00#8 0x00#8 b with params := { fixtureParams with mbxSplitTake := true } }

/-- A byte with the bit pattern 0x41 queued, the engine idle. -/
def queued : State := { ring 1#4 0#4 with rbMem := rbWrite base.rbMem 0#4 0x41#8 }

/-- Everything a step test compares of the transmit side. -/
def lines (s : State) : Nat × Byte × Bool × Bool × Bool := (s.txCount.val, s.txSr, s.serOut, s.tandyClk, s.tandyData)

/-! ### WellFormed refuses ill-formed operations -/

theorem test_wf_refuses_a_release_of_a_prefix : (Instr.xlRelOther false 0xE0#8).wellFormed tableContext = false := by decide
theorem test_wf_refuses_a_release_of_a_modifier_as_other :
    (Instr.xlRelOther false 0x12#8).wellFormed tableContext = false := by decide
theorem test_wf_refuses_equal_modifier_codes :
    Instr.xlRelLshift.wellFormed
      { tableContext with params := { fixtureParams with mods := { ModCodes.default with rshift := 0x012#9 } } } = false := by
  decide
theorem test_wf_refuses_a_modifier_that_is_a_prefix :
    Instr.xlRelCaps.wellFormed
      { tableContext with params := { fixtureParams with mods := { ModCodes.default with caps := 0x0F0#9 } } } = false := by
  decide
theorem test_wf_refuses_a_press_of_a_listed_modifier :
    Instr.xlPrsLalt.wellFormed
      { tableContext with params := { fixtureParams with mods := { ModCodes.default with lalt := 0x01C#9 } } } = false := by
  decide
theorem test_wf_refuses_a_key_outside_the_table : (Instr.xlPrsKey false 0xAA#8).wellFormed tableContext = false := by decide
theorem test_wf_refuses_a_key_in_the_two_byte_case :
    (Instr.xlPrsKey false 0x05#8).wellFormed { tableContext with altSelected := true } = false := by decide
theorem test_wf_refuses_a_pair_without_alt : (Instr.xlPrsFkeyAlt false 0x05#8).wellFormed tableContext = false := by decide
theorem test_wf_refuses_a_pair_for_a_letter :
    (Instr.xlPrsFkeyAlt false 0x1C#8).wellFormed { tableContext with altSelected := true } = false := by decide
theorem test_wf_refuses_a_listed_key_as_other : (Instr.xlPrsOther false 0x1C#8).wellFormed tableContext = false := by decide
theorem test_wf_refuses_a_start_with_nothing_to_launch : Instr.txStart.wellFormed tableContext = false := by decide
theorem test_wf_refuses_a_hold_with_a_byte_to_launch :
    Instr.txIdleHold.wellFormed { tableContext with launch := true } = false := by decide

/-! ### Admissible parameters refuse what R5 and R163 exclude -/

-- R5: `MOD_LSHIFT` is 0x012, `MOD_LCTRL` is 0x014, the other five are parameters
theorem test_codes_refuse_another_lshift : { ModCodes.default with lshift := 0x013#9 }.wf = false := by decide
theorem test_codes_refuse_another_lctrl : { ModCodes.default with lctrl := 0x015#9 }.wf = false := by decide
theorem test_codes_admit_another_caps : { ModCodes.default with caps := 0x077#9 }.wf = true := by decide
-- W4: the default wave with the data line high already at slot 36 is never low in slots 36 to 39
theorem test_wave_refuses_a_stop_that_is_never_low :
    TandyWave.admissible (TandyWave.default.set 36 ⟨.hold, .high⟩) = false := by decide
-- W4 and W5: the low may come at slot 37, with the clock's fall
theorem test_wave_admits_a_later_low :
    TandyWave.admissible ((TandyWave.default.set 36 ⟨.hold, .high⟩).set 37 ⟨.low, .low⟩) = true := by decide

/-! ### Decoding, from words written out bit by bit (R62, R66, R77, R83) -/

-- 95_test_vectors.md RX-1 edges 10 and 11, RX-6 edge 11: 0x78E, 0x3C7, 0x7C7
theorem test_decode_rxShift : decode tableContext (.ps2win 0b11110001110#11) = .ok (.rxShift true true 0b11000111#8) := by decide
theorem test_decode_rxAccept : decode tableContext (.ps2win 0b01111000111#11) = .ok (.rxAccept true 0b11100011#8) := by decide
theorem test_decode_rxReject : decode tableContext (.ps2win 0b11111000111#11) = .ok (.rxReject true 0b11100011#8) := by decide
-- the match values of R112 to R120 and R126 to R132
theorem test_decode_xlPfxE0 : decode tableContext (.xkey 0b0011100000#10) = .ok (.xlPfxE0 false false) := by decide
theorem test_decode_xlPfxF0 : decode tableContext (.xkey 0b1111110000#10) = .ok (.xlPfxF0 true true) := by decide
theorem test_decode_xlRelLshift : decode tableContext (.xkey 0b1000010010#10) = .ok .xlRelLshift := by decide
theorem test_decode_xlRelRshift : decode tableContext (.xkey 0b1001011001#10) = .ok .xlRelRshift := by decide
theorem test_decode_xlRelLctrl : decode tableContext (.xkey 0b1000010100#10) = .ok .xlRelLctrl := by decide
theorem test_decode_xlRelRctrl : decode tableContext (.xkey 0b1100010100#10) = .ok .xlRelRctrl := by decide
theorem test_decode_xlRelLalt : decode tableContext (.xkey 0b1000010001#10) = .ok .xlRelLalt := by decide
theorem test_decode_xlRelRalt : decode tableContext (.xkey 0b1100010001#10) = .ok .xlRelRalt := by decide
theorem test_decode_xlRelCaps : decode tableContext (.xkey 0b1001011000#10) = .ok .xlRelCaps := by decide
-- XL-7: the release of A
theorem test_decode_xlRelOther : decode tableContext (.xkey 0b1000011100#10) = .ok (.xlRelOther false 0x1C#8) := by decide
-- XL-1: keypad Enter, the one escaped code of the fixture
theorem test_decode_xlPrsKey : decode tableContext (.xkey 0b0101011010#10) = .ok (.xlPrsKey true 0x5A#8) := by decide
-- XL-8: F10 with alt selected
theorem test_decode_xlPrsFkeyAlt :
    decode { tableContext with altSelected := true } (.xkey 0b0000001001#10) = .ok (.xlPrsFkeyAlt false 0x09#8) := by decide
theorem test_decode_xlPrsLshift : decode tableContext (.xkey 0b0000010010#10) = .ok .xlPrsLshift := by decide
theorem test_decode_xlPrsRshift : decode tableContext (.xkey 0b0001011001#10) = .ok .xlPrsRshift := by decide
theorem test_decode_xlPrsLctrl : decode tableContext (.xkey 0b0000010100#10) = .ok .xlPrsLctrl := by decide
theorem test_decode_xlPrsRctrl : decode tableContext (.xkey 0b0100010100#10) = .ok .xlPrsRctrl := by decide
theorem test_decode_xlPrsLalt : decode tableContext (.xkey 0b0000010001#10) = .ok .xlPrsLalt := by decide
theorem test_decode_xlPrsRalt : decode tableContext (.xkey 0b0100010001#10) = .ok .xlPrsRalt := by decide
theorem test_decode_xlPrsCaps : decode tableContext (.xkey 0b0001011000#10) = .ok .xlPrsCaps := by decide
-- XL-2, last row: key 0x112 is not left shift
theorem test_decode_xlPrsOther : decode tableContext (.xkey 0b0100010010#10) = .ok (.xlPrsOther true 0x12#8) := by decide
-- R78, one slot of each class
theorem test_decode_txIdleHold : decode tableContext (.txslot 0b000000#6) = .ok .txIdleHold := by decide
theorem test_decode_txStart : decode { tableContext with launch := true } (.txslot 0b000000#6) = .ok .txStart := by decide
theorem test_decode_txStartHold : decode tableContext (.txslot 0b000011#6) = .ok (.txStartHold 2) := by decide
theorem test_decode_txDataP0 : decode tableContext (.txslot 0b000100#6) = .ok (.txDataP0 0) := by decide
theorem test_decode_txDataP1 : decode tableContext (.txslot 0b001001#6) = .ok (.txDataP1 1) := by decide
theorem test_decode_txDataP2 : decode tableContext (.txslot 0b010110#6) = .ok (.txDataP2 4) := by decide
theorem test_decode_txDataP3 : decode tableContext (.txslot 0b100011#6) = .ok (.txDataP3 7) := by decide
theorem test_decode_txStopP0 : decode tableContext (.txslot 0b100100#6) = .ok .txStopP0 := by decide
theorem test_decode_txStopP1 : decode tableContext (.txslot 0b100101#6) = .ok .txStopP1 := by decide
theorem test_decode_txStopP2 : decode tableContext (.txslot 0b100110#6) = .ok .txStopP2 := by decide
theorem test_decode_txStopP3 : decode tableContext (.txslot 0b100111#6) = .ok .txStopP3 := by decide
theorem test_decode_unreachable_slot : decode tableContext (.txslot 0b101000#6) = .error (.unreachableSlot 40) := by decide
-- R83: the ASCII characters 0 1 P t T
theorem test_decode_rxEdge : decode tableContext (.line 0b00110001#8) = .ok (.rxEdge true) := by decide
theorem test_decode_xlPoll : decode tableContext (.line 0b01010000#8) = .ok .xlPoll := by decide
theorem test_decode_txTick : decode tableContext (.line 0b01110100#8) = .ok (.txTick false) := by decide
theorem test_decode_stray_character : decode tableContext (.line 0b01100001#8) = .error (.notATraceLine 0x61#8) := by decide

/-- A bare word of the table, in each of the three formats, and a word no format holds. -/
theorem test_decodeTableWord :
    decodeTableWord 11 0x3C7 = some (.rxAccept true 0xE3#8) ∧ decodeTableWord 10 0x314 = some .xlRelRctrl ∧
    decodeTableWord 6 36 = some .txStopP0 ∧ decodeTableWord 16 0x401 = some (.rxReject false 0x00#8) ∧
    decodeTableWord 6 40 = none := by decide

/-! ### A placed word is the word the next step decodes -/

theorem test_place_window : shows (step (base.withFetchWord 11 0x3C7)) (fun s => (s.rxWin, s.mbxByte, s.mbxReady))
    = some (0#11, 0x1C#8, true) := by decide
theorem test_place_xkey : shows (step ({ base with modCtrl := 0b10#2 }.withFetchWord 10 0x214)) (fun s => (s.hist2, s.hist1))
    = some (0xF0#8, 0x14#8) := by decide
theorem test_place_slot : shows (step (base.withFetchWord 6 36)) lines = some (37, 0x00#8, true, true, false) := by decide

/-! ### Single steps of the receiver (RX-9) and the mailbox (MB) -/

theorem test_rxShift : shows (exec (.rxShift true false 0x00#8) base) (·.rxWin) = some 0x400#11 := by decide
-- RX-2, row 0x83: window 0x2F9
theorem test_rxAccept : shows (exec (.rxAccept true 0x7C#8) base) (fun s => (s.mbxByte, s.mbxReady, s.rxWin))
    = some (0x83#8, true, 0#11) := by decide
-- RX-6: E_FRAME(0x7C7)
theorem test_rxReject : shows (exec (.rxReject true 0xE3#8) base) (fun s => (s.mbxReady, s.rxWin, s.trace))
    = some (false, 0#11, [.eFrame 0x7C7#11]) := by decide
theorem test_rxEdge_accepts : shows (exec (.rxEdge true) { base with rxWin := 0x002#11 })
    (fun s => (s.rxWin, s.mbxByte, s.mbxReady)) = some (0#11, 0xFF#8, true) := by decide
theorem test_rxEdge_rejects : shows (exec (.rxEdge false) { base with rxWin := 0x002#11 })
    (fun s => (s.rxWin, s.mbxReady, s.trace)) = some (0#11, false, [.eFrame 0x401#11]) := by decide
-- MB-4 and MB-2
theorem test_mbxPut : shows (exec (.mbxPut 0xF0#8) (pending 0x00#8 0x00#8 0xF0#8)) (fun s => (s.mbxByte, s.mbxReady, s.trace))
    = some (0xF0#8, true, [.eMbxOverwrite 0xF0#8]) := by decide
theorem test_mbxTake : shows (exec .mbxTake (pending 0x00#8 0x00#8 0x1C#8)) (fun s => (s.mbxByte, s.mbxReady, s.trace))
    = some (0x1C#8, false, [.resultByte (some 0x1C#8)]) := by decide
theorem test_mbxTake_empty : shows (exec .mbxTake base) (fun s => (s.mbxReady, s.trace)) = some (false, [.resultByte none]) := by
  decide

/-! ### Single steps of the translator -/

theorem test_xlIdle : shows (exec .xlIdle { base with hist1 := 0xE0#8 }) (·.hist1) = some 0xE0#8 := by decide
-- R112, R113: the examples
theorem test_xlPfxE0 : shows (exec (.xlPfxE0 false false) { base with hist1 := 0x1C#8 }) (fun s => (s.hist2, s.hist1))
    = some (0x1C#8, 0xE0#8) := by decide
theorem test_xlPfxF0 : shows (exec (.xlPfxF0 false true) { base with hist2 := 0x1C#8, hist1 := 0xE0#8 })
    (fun s => (s.hist2, s.hist1)) = some (0xE0#8, 0xF0#8) := by decide
-- R114 to R120: the examples
theorem test_xlRelLshift : shows (exec .xlRelLshift { base with modShift := 0b11#2 }) (·.modShift) = some 0b10#2 := by decide
theorem test_xlRelRshift : shows (exec .xlRelRshift { base with modShift := 0b11#2 }) (·.modShift) = some 0b01#2 := by decide
theorem test_xlRelLctrl : shows (exec .xlRelLctrl { base with modCtrl := 0b01#2 }) (·.modCtrl) = some 0b00#2 := by decide
theorem test_xlRelRctrl : shows (exec .xlRelRctrl { base with modCtrl := 0b10#2 }) (·.modCtrl) = some 0b00#2 := by decide
theorem test_xlRelLalt : shows (exec .xlRelLalt { base with modAlt := 0b01#2 }) (·.modAlt) = some 0b00#2 := by decide
theorem test_xlRelRalt : shows (exec .xlRelRalt { base with modAlt := 0b11#2 }) (·.modAlt) = some 0b01#2 := by decide
theorem test_xlRelCaps : shows (exec .xlRelCaps { base with modCaps := 0b11#2 }) (·.modCaps) = some 0b01#2 := by decide
theorem test_xlRelCaps_inactive : shows (exec .xlRelCaps { base with modCaps := 0b10#2 }) (·.modCaps) = some 0b00#2 := by decide
theorem test_xlRelOther : shows (exec (.xlRelOther false 0x1C#8) base) (fun s => (s.hist1, s.rbIn, s.modShift))
    = some (0x1C#8, 0#4, 0#2) := by decide
-- XL-4: caps and shift on the letter A; ctrl over alt
theorem test_xlPrsKey_caps_shift :
    shows (exec (.xlPrsKey false 0x1C#8) { base with modShift := 0b01#2, modCaps := 0b01#2 }) queue = some [0x61#8] := by decide
theorem test_xlPrsKey_ctrl :
    shows (exec (.xlPrsKey false 0x21#8) { base with modCtrl := 0b01#2, modAlt := 0b01#2 }) queue = some [0x03#8] := by decide
-- XL-8: F9; P4: a full ring drops the pair
theorem test_xlPrsFkeyAlt :
    shows (exec (.xlPrsFkeyAlt false 0x01#8) { base with modAlt := 0b01#2 }) queue = some [0x00#8, 0x39#8] := by decide
theorem test_xlPrsFkeyAlt_full :
    shows (exec (.xlPrsFkeyAlt false 0x09#8) { ring 14#4 0#4 with modAlt := 0b01#2 }) (fun s => (s.rbIn, s.trace))
      = some (14#4, [.eRbFull [0x00#8, 0x30#8]]) := by decide
-- R126 to R132: the examples
theorem test_xlPrsLshift : shows (exec .xlPrsLshift { base with modShift := 0b10#2 }) (·.modShift) = some 0b11#2 := by decide
theorem test_xlPrsRshift : shows (exec .xlPrsRshift base) (·.modShift) = some 0b10#2 := by decide
theorem test_xlPrsLctrl : shows (exec .xlPrsLctrl base) (·.modCtrl) = some 0b01#2 := by decide
theorem test_xlPrsRctrl : shows (exec .xlPrsRctrl { base with modCtrl := 0b01#2 }) (·.modCtrl) = some 0b11#2 := by decide
theorem test_xlPrsLalt : shows (exec .xlPrsLalt base) (·.modAlt) = some 0b01#2 := by decide
theorem test_xlPrsRalt : shows (exec .xlPrsRalt base) (·.modAlt) = some 0b10#2 := by decide
theorem test_xlPrsCaps : shows (exec .xlPrsCaps { base with modCaps := 0b01#2 }) (·.modCaps) = some 0b10#2 := by decide
theorem test_xlPrsCaps_held : shows (exec .xlPrsCaps { base with modCaps := 0b11#2 }) (·.modCaps) = some 0b11#2 := by decide
-- XL-9
theorem test_xlPrsOther : shows (exec (.xlPrsOther false 0xAA#8) base) (fun s => (s.hist1, s.trace))
    = some (0xAA#8, [.eUnknownKey 0x0AA#9]) := by decide
-- XL-2 and XL-11: an escaped release, an escaped press after F0 E0
theorem test_xlPoll_escaped_release :
    shows (exec .xlPoll { pending 0xE0#8 0xF0#8 0x14#8 with modCtrl := 0b11#2 }) (fun s => (s.modCtrl, s.mbxReady))
      = some (0b01#2, false) := by decide
theorem test_xlPoll_escaped_press :
    shows (exec .xlPoll (pending 0xF0#8 0xE0#8 0x14#8)) (fun s => (s.modCtrl, s.hist2, s.hist1))
      = some (0b10#2, 0xE0#8, 0x14#8) := by decide

/-! ### Single steps of the ring buffer (RB) -/

theorem test_rbPush_wraps : shows (exec (.rbPush 0x61#8) (ring 15#4 3#4)) (fun s => (s.rbIn, s.rbMem.readAt 15, s.trace))
    = some (0#4, 0x61#8, [.resultBool true]) := by decide
theorem test_rbPush_full : shows (exec (.rbPush 0x61#8) (ring 2#4 3#4)) (fun s => (s.rbIn, s.rbMem.readAt 2, s.trace))
    = some (2#4, 0x00#8, [.resultBool false]) := by decide
theorem test_rbPush2_wraps :
    shows (exec (.rbPush2 0x55#8 0x31#8) (ring 15#4 15#4)) (fun s => (s.rbIn, s.rbMem.readAt 15, s.rbMem.readAt 0))
      = some (1#4, 0x55#8, 0x31#8) := by decide
theorem test_rbPush2_one_free_slot : shows (exec (.rbPush2 0x55#8 0x31#8) (ring 1#4 3#4)) (fun s => (s.rbIn, s.trace))
    = some (1#4, [.resultBool false]) := by decide
theorem test_rbPop : shows (exec .rbPop { ring 1#4 15#4 with rbMem := rbWrite base.rbMem 15#4 0x41#8 })
    (fun s => (s.rbOut, s.trace)) = some (0#4, [.resultByte (some 0x41#8)]) := by decide
theorem test_rbPop_empty : shows (exec .rbPop (ring 7#4 7#4)) (fun s => (s.rbOut, s.trace))
    = some (7#4, [.resultByte none]) := by decide

/-! ### Single steps of the transmit engine (TX-1: the rows of byte 0x41) -/

theorem test_txIdleHold : shows (exec .txIdleHold queued) (fun s => (lines s, s.rbOut))
    = some ((0, 0x00#8, true, true, true), 0#4) := by decide
theorem test_txStart : shows (exec .txStart queued) (fun s => (lines s, s.rbOut, s.trace))
    = some ((1, 0x41#8, false, true, false), 1#4, [.launch 0x41#8]) := by decide
theorem test_txStart_empty : exec .txStart base = .refused (.caseNotSelected "TX_START") := by rfl
theorem test_txStartHold :
    shows (exec (.txStartHold 2) { base with txCount := 3, txSr := 0x41#8, serOut := false, tandyData := false }) lines
      = some (4, 0x41#8, false, true, false) := by decide
theorem test_txDataP0 :
    shows (exec (.txDataP0 0) { base with txCount := 4, txSr := 0x41#8, serOut := false, tandyData := false }) lines
      = some (5, 0x41#8, true, true, true) := by decide
theorem test_txDataP1 :
    shows (exec (.txDataP1 0) { base with txCount := 5, txSr := 0x41#8 }) lines = some (6, 0x41#8, true, false, true) := by decide
theorem test_txDataP2 :
    shows (exec (.txDataP2 0) { base with txCount := 6, txSr := 0x41#8, tandyClk := false }) lines
      = some (7, 0x41#8, true, true, true) := by decide
theorem test_txDataP3 :
    shows (exec (.txDataP3 0) { base with txCount := 7, txSr := 0x41#8 }) lines = some (8, 0x20#8, true, true, false) := by decide
theorem test_txStopP0 :
    shows (exec .txStopP0 { base with txCount := 36, serOut := false, tandyData := false }) lines
      = some (37, 0x00#8, true, true, false) := by decide
theorem test_txStopP1 :
    shows (exec .txStopP1 { base with txCount := 37, tandyData := false }) lines = some (38, 0x00#8, true, false, false) := by decide
theorem test_txStopP2 :
    shows (exec .txStopP2 { base with txCount := 38, tandyClk := false, tandyData := false }) lines
      = some (39, 0x00#8, true, false, true) := by decide
theorem test_txStopP3 :
    shows (exec .txStopP3 { base with txCount := 39, tandyClk := false }) lines = some (0, 0x00#8, true, true, true) := by decide
-- TX-3: a byte waits for the device, and goes on without it
theorem test_txTick_waits : shows (exec (.txTick false) queued) (fun s => (s.txCount.val, s.rbOut)) = some (0, 0#4) := by decide
theorem test_txTick_goes_on : shows (exec (.txTick false) { queued with txCount := 5, txSr := 0x41#8 }) lines
    = some (6, 0x41#8, true, false, true) := by decide

/-! ### Witnesses: states and operands that meet the hypotheses of the obligations, each clause at a boundary -/

theorem witness_DecodeOfEncodeIsTheInstruction :
    (Instr.xlPrsFkeyAlt false 0x05#8).wellFormed { tableContext with altSelected := true } = true ∧
    encode fixtureParams (.xlPrsFkeyAlt false 0x05#8) = some (.xkey 0x005#10) := by decide
theorem witness_EncodeOfDecodeIsTheWord :
    fixtureParams.mods.distinct = true ∧ decode tableContext (.xkey 0x3FF#10) = .ok (.xlRelOther true 0xFF#8) := by decide
theorem witness_OnlyUnreachableSlotsAndStrayCharactersAreRefused :
    (39#6).toNat < 40 ∧ 40 ≤ (40#6).toNat ∧ 0x54#8 ∈ [0x30#8, 0x31#8, 0x50#8, 0x74#8, 0x54#8] ∧
    0x55#8 ∉ [0x30#8, 0x31#8, 0x50#8, 0x74#8, 0x54#8] := by decide
theorem witness_StepRunsTheNextEvent :
    { base with events := [.edge true] }.events = .edge true :: [] ∧ base.events = [] ∧
    decodeLine 0x54#8 = .ok (.tick true) := by decide
theorem witness_StepRunsTheDecodedCase_edge :
    { base with rxWin := 0x002#11, events := [.edge false] }.events = .edge false :: [] ∧
    decode (decodeContext { base with rxWin := 0x002#11 } false) (.ps2win ((0x002#11 >>> 1) ||| 0x400#11))
      = .ok (.rxReject false 0x00#8) := by decide
theorem witness_StepRunsTheDecodedCase_poll :
    { pending 0x00#8 0x00#8 0x1C#8 with events := [.poll] }.events = .poll :: [] ∧
    (pending 0x00#8 0x00#8 0x1C#8).params.mbxSplitTake = false ∧ (pending 0x00#8 0x00#8 0x1C#8).mbxReady = true ∧
    decode (decodeContext (pending 0x00#8 0x00#8 0x1C#8) false) (.xkey (formXkey (pending 0x00#8 0x00#8 0x1C#8) 0x1C#8))
      = .ok (.xlPrsKey false 0x1C#8) := by decide
theorem witness_StepRunsTheDecodedCase_idle :
    { base with events := [.poll] }.events = .poll :: [] ∧ base.params.mbxSplitTake = false ∧ base.mbxReady = false := by decide
theorem witness_StepRunsTheDecodedCase_tick :
    { queued with events := [.tick true] }.events = .tick true :: [] ∧
    decode (decodeContext queued true) (.txslot (BitVec.ofNat 6 queued.txCount.val)) = .ok .txStart := by decide
theorem witness_EverySelectedOperationAnswersANextState :
    Instr.txStart.wellFormed (decodeContext queued true) = true ∧
    (Instr.xlPrsFkeyAlt false 0x05#8).wellFormed (decodeContext { base with modAlt := 0b10#2 } false) = true ∧
    (Instr.xlPrsKey true 0x5A#8).wellFormed (decodeContext base false) = true := by decide
theorem witness_EdgeShiftsDeliversOrDiscards :
    { base with rxWin := 0x7FD#11 }.rxWin.getLsbD 1 = false ∧ { base with rxWin := 0x002#11 }.rxWin.getLsbD 1 = true ∧
    { base with rxWin := 0x7FF#11 }.rxWin.getLsbD 1 = true := by decide
theorem witness_WirePolarityFormIsTheSameMachine :
    ((~~~0x000#11 >>> 1) ||| 0x000#11).getLsbD 0 = true ∧
    (((~~~0x002#11 >>> 1) ||| 0x400#11).getLsbD 0 = false ∧ ((~~~0x002#11 >>> 1) ||| 0x400#11).getLsbD 10 = true) ∧
    (((~~~0x002#11 >>> 1) ||| 0x000#11).getLsbD 0 = false ∧ ((~~~0x002#11 >>> 1) ||| 0x000#11).getLsbD 10 = false) := by decide
theorem witness_WellFormedFrameIsDelivered :
    { base with events := frameEvents false 0xFF#8 false true ++ [Event.poll] }.rxWin = 0#11 ∧
    { base with events := frameEvents false 0xFF#8 false true ++ [Event.poll] }.events
      = frameEvents false 0xFF#8 false true ++ [Event.poll] := by decide
theorem witness_FrameAfterAWrongStopIsDelivered :
    base.rxWin = 0#11 ∧
    { base with events := frameEvents false 0x1C#8 false false ++ frameEvents false 0x32#8 false true }.events
      = frameEvents false 0x1C#8 false false ++ (frameEvents false 0x32#8 false true ++ []) := by decide
theorem witness_PrefixBytesAreOnlyRecorded : 0x3E0#10 &&& 0x0FF#10 = 0x0E0#10 ∧ 0x0F0#10 &&& 0x0FF#10 = 0x0F0#10 := by decide
theorem witness_LeftShiftAndLeftCtrlReleases :
    tableContext.params.mods.lshift = 0x012#9 ∧ tableContext.params.mods.lctrl = 0x014#9 ∧
    tableContext.params.mods.distinct = true := by decide
theorem witness_LeftShiftAndLeftCtrlPresses :
    tableContext.params.mods.lshift = 0x012#9 ∧ tableContext.params.mods.lctrl = 0x014#9 ∧
    tableContext.params.mods.distinct = true ∧
    (∀ e ∈ tableContext.params.table.keymap, e.code ≠ 0x012#11 ∧ e.code ≠ 0x014#11) := by decide
theorem witness_CapsPressTogglesUnlessHandled :
    base.modCaps = 0b00#2 ∧ { base with modCaps := 0b01#2 }.modCaps = 0b01#2 ∧
    { base with modCaps := 0b10#2 }.modCaps = 0b10#2 ∧ { base with modCaps := 0b11#2 }.modCaps = 0b11#2 := by decide
theorem witness_UnknownPressIsSilentlyIgnored :
    (0x1FF#10).getLsbD 9 = false ∧ (0x1FF#10).setWidth 8 ≠ 0xE0#8 ∧ (0x1FF#10).setWidth 8 ≠ 0xF0#8 ∧
    (∀ e ∈ tableContext.params.table.keymap, e.code ≠ ((0x1FF#10).setWidth 9).setWidth 11) ∧
    (0x1FF#10).setWidth 9 ∉ tableContext.params.mods.toList := by decide
theorem witness_LookupReturnsTheLeastIndex :
    (lookup keymapT.keymap 0x01C#9).map (·.1) = some 0 ∧ (lookup keymapT.keymap 0x15A#9).map (·.1) = some 39 ∧
    lookup keymapT.keymap 0x11C#9 = none := by decide
theorem witness_ColumnSelectionFollowsTheTruthTable :
    { base with modCtrl := 0b10#2 }.modCtrl ≠ 0#2 ∧
    (base.modCtrl = 0#2 ∧ { base with modAlt := 0b01#2 }.modAlt ≠ 0#2) ∧
    (base.modAlt = 0#2 ∧ { base with modShift := 0b10#2 }.modShift ≠ 0#2 ∧
      ¬ (26 < 26 ∧ { base with modCaps := 0b01#2 }.modCaps.getLsbD 0 = true) ∧
      (25 < 26 ∧ { base with modCaps := 0b01#2 }.modCaps.getLsbD 0 = true)) ∧
    (base.modShift = 0#2 ∧ ¬ (25 < 26 ∧ { base with modCaps := 0b10#2 }.modCaps.getLsbD 0 = true)) := by decide
theorem witness_FoundKeyPushesTheSelectedColumn :
    lookup base.params.table.keymap (lookupKey true 0x5A#8) = some (39, ⟨0x15A, 0x0A, 0x0A, 0x0A, 0x0A⟩) ∧
    (ring 14#4 0#4).rbIn + 1#4 ≠ (ring 14#4 0#4).rbOut ∧ (ring 15#4 0#4).rbIn + 1#4 = (ring 15#4 0#4).rbOut := by decide
theorem witness_AltFunctionKeyPushesBothBytesOrNeither :
    lookup base.params.table.keymap (lookupKey false 0x09#8) = some (26, ⟨0x009, 0xB0, 0xA0, 0x00, 0x90⟩) ∧
    lookup base.params.table.keymap (lookupKey false 0x01#8) = some (35, ⟨0x001, 0xB9, 0xA9, 0x00, 0x99⟩) ∧
    base.params.table.fkeyBase ≤ 26 ∧ 35 < base.params.table.fkeyBase + 10 ∧
    ((ring 13#4 0#4).rbIn - (ring 13#4 0#4).rbOut).toNat ≤ 13 ∧
    14 ≤ ((ring 1#4 3#4).rbIn - (ring 1#4 3#4).rbOut).toNat := by decide
theorem witness_PollConsumesThePendingByte :
    base.params.mbxSplitTake = false ∧ base.mbxReady = false ∧ (pending 0x00#8 0x00#8 0x1C#8).mbxReady = true := by decide
theorem witness_PollRunsTheDecodedCase :
    (pending 0x00#8 0xF0#8 0x12#8).params.mbxSplitTake = false ∧ (pending 0x00#8 0xF0#8 0x12#8).mbxReady = true := by decide
theorem witness_ReleasesNeverPush :
    (pending 0xE0#8 0xF0#8 0x5A#8).params.mbxSplitTake = false ∧ (pending 0xE0#8 0xF0#8 0x5A#8).mbxReady = true ∧
    (pending 0xE0#8 0xF0#8 0x5A#8).hist1 = 0xF0#8 := by decide
theorem witness_ModifiersChangeOnlyOnModifierKeys :
    ∃ t, exec .xlPoll (pending 0x00#8 0x00#8 0x12#8) = .next t ∧ ¬ SameModifiers (pending 0x00#8 0x00#8 0x12#8) t :=
  ⟨_, rfl, fun h => absurd h.modShift (by decide)⟩
theorem witness_PlainPressEnqueuesTheNoneColumn :
    let s := { pending 0x00#8 0xE0#8 0x5A#8 with rbIn := 14#4, modCaps := 0b10#2 }
    s.params.mbxSplitTake = false ∧ s.mbxReady = true ∧ s.mbxByte ≠ 0xE0#8 ∧ s.mbxByte ≠ 0xF0#8 ∧ s.hist1 ≠ 0xF0#8 ∧
    lookup s.params.table.keymap (formKey s s.mbxByte) = some (39, ⟨0x15A, 0x0A, 0x0A, 0x0A, 0x0A⟩) ∧
    s.modShift = 0#2 ∧ s.modCtrl = 0#2 ∧ s.modAlt = 0#2 ∧ s.modCaps.getLsbD 0 = false ∧ (queue s).length < 15 := by decide
theorem fixtureParams_wf : fixtureParams.wf = true := by decide
theorem fixtureTable_wf : keymapT.wf ModCodes.default = true := by decide
theorem witness_AltFunctionKeyEnqueuesSentinelAndDigit :
    let s := { pending 0x00#8 0x00#8 0x01#8 with rbIn := 13#4, modAlt := 0b10#2 }
    s.params.mbxSplitTake = false ∧ s.params.table.wf s.params.mods = true ∧ s.mbxReady = true ∧ s.hist1 ≠ 0xF0#8 ∧ 9 < 10 ∧
    lookup s.params.table.keymap (formKey s s.mbxByte)
      = some (s.params.table.fkeyBase + 9, ⟨0x001, 0xB9, 0xA9, 0x00, 0x99⟩) ∧
    s.mbxByte ≠ 0xE0#8 ∧ s.mbxByte ≠ 0xF0#8 ∧ s.modCtrl = 0#2 ∧ s.modAlt ≠ 0#2 ∧ (queue s).length ≤ 13 :=
  ⟨rfl, fixtureTable_wf, by decide⟩
theorem witness_SplitTakeInOnePieceIsTheAtomicTake :
    (splitPending 0x1C#8).params.mbxSplitTake = true ∧ (splitPending 0x1C#8).takePending = false ∧
    (splitPending 0x1C#8).mbxReady = true := by decide
theorem witness_SplitTakeCanDeliverAByteTwice :
    (splitPending 0xF0#8).params.mbxSplitTake = true ∧ (splitPending 0xF0#8).takePending = false ∧
    (splitPending 0xF0#8).mbxReady = true := by decide
theorem witness_RingPushWritesOneCell :
    (ring 2#4 3#4).rbIn + 1#4 = (ring 2#4 3#4).rbOut ∧ (ring 15#4 1#4).rbIn + 1#4 ≠ (ring 15#4 1#4).rbOut := by decide
theorem witness_RingPushTwoWritesBothOrNeither :
    14 ≤ ((ring 14#4 0#4).rbIn - (ring 14#4 0#4).rbOut).toNat ∧
    ((ring 0#4 3#4).rbIn - (ring 0#4 3#4).rbOut).toNat < 14 := by decide
theorem witness_RingPopReadsTheOldestCell :
    (ring 7#4 7#4).rbIn = (ring 7#4 7#4).rbOut ∧ (ring 0#4 15#4).rbIn ≠ (ring 0#4 15#4).rbOut := by decide
theorem witness_RingRefinesABoundedQueue :
    (queue (ring 14#4 0#4)).length ≤ 14 ∧ 14 < (queue (ring 15#4 0#4)).length ∧
    (queue (ring 0#4 3#4)).length ≤ 13 ∧ 13 < (queue (ring 1#4 3#4)).length := by decide
theorem witness_StepsQueueWholeEmissionsAndLaunchInOrder :
    (∃ t, step base = .next t) ∧ (∃ t, step { base with events := [.edge false] } = .next t) ∧
    (∃ t, step { queued with events := [.tick true] } = .next t) ∧
    (∃ t, step { pending 0x00#8 0x00#8 0x05#8 with modAlt := 0b01#2, events := [.poll] } = .next t) :=
  ⟨⟨_, rfl⟩, ⟨_, rfl⟩, ⟨_, rfl⟩, ⟨_, rfl⟩⟩
theorem witness_IdleTickHolds :
    base.txCount = 0 ∧ base.rbIn = base.rbOut ∧ (queued.txCount = 0 ∧ (queued.rbIn = queued.rbOut ∨ false = false)) := by decide
theorem witness_StartTickLaunchesTheOldestByte :
    queued.rbIn ≠ queued.rbOut ∧ queued.params.wave = TandyWave.default ∧ queued.txCount = 0 := by decide
theorem witness_TickAdvancesTheCounter :
    base.txCount = 0 ∧ { base with txCount := 1 }.txCount ≠ 0 ∧ { base with txCount := 39 }.txCount ≠ 0 := by decide
theorem witness_SerialWaveformOfAByte :
    let s := { queued with events := .tick true :: ((List.replicate 39 false).map Event.tick ++ [Event.poll]) }
    s.txCount = 0 ∧ s.rbIn ≠ s.rbOut ∧ s.events = .tick true :: ((List.replicate 39 false).map Event.tick ++ [Event.poll]) ∧
    (List.replicate 39 false).length ≤ 39 ∧ ([] : List Bool).length ≤ 39 := by decide
theorem witness_LegacyWaveformUnderTheDefaultTable :
    let s := { queued with events := .tick true :: ((List.replicate 39 true).map Event.tick ++ []) }
    s.txCount = 0 ∧ s.rbIn ≠ s.rbOut ∧ s.params.wave = TandyWave.default ∧ s.tandyClk = true ∧ s.tandyData = true ∧
    s.events = .tick true :: ((List.replicate 39 true).map Event.tick ++ []) ∧ (List.replicate 39 true).length ≤ 39 := by decide
theorem witness_EveryStepKeepsTheInvariant :
    Inv { queued with events := [.tick true] } ∧ ∃ t, step { queued with events := [.tick true] } = .next t :=
  ⟨{ memory := by decide, params := fixtureParams_wf, receiver := by decide, take := by decide, shift := by decide,
     serial := by intro l h; exact Option.some.inj h, legacy := by decide }, ⟨_, rfl⟩⟩
theorem witness_EachEventWritesOnlyItsAgentsState :
    (∃ t, exec (.rxEdge true) { base with rxWin := 0x002#11 } = .next t) ∧
    (∃ t, exec .xlPoll (pending 0x00#8 0x00#8 0x1C#8) = .next t) ∧ (∃ t, exec (.txTick true) queued = .next t) :=
  ⟨⟨_, rfl⟩, ⟨_, rfl⟩, ⟨_, rfl⟩⟩
theorem witness_NoOperationReadsTheTrace : ∃ t, exec (.mbxPut 0x32#8) (pending 0x00#8 0x00#8 0x1C#8) = .next t := ⟨_, rfl⟩
theorem witness_ErrorMarkersAreRaisedByTheirCasesOnly :
    (∃ t, step { base with rxWin := 0x002#11, events := [.edge false] } = .next t) ∧
    (∃ t, step { pending 0x00#8 0x00#8 0xAA#8 with events := [.poll] } = .next t) ∧
    (∃ t, step { queued with events := [.tick true] } = .next t) :=
  ⟨⟨_, rfl⟩, ⟨_, rfl⟩, ⟨_, rfl⟩⟩

end Sys2Proof.Tests
end

section
/-! PROOFS. Facts about the `XKEY` decoder (R66, R72, R73) and the table search (R122). -/

namespace Sys2Proof

/-- The byte of an `XKEY` word is what the mask of the prefix rows keeps. -/
theorem xkeyByte_eq_mask (w : XkeyWord) : xkeyByte w = (w &&& 0x0FF#10).setWidth 8 := by
  ext i hi
  interval_cases i <;> simp [xkeyByte]

/-- `LOOKUP` finds nothing exactly where no entry's code is the key in the whole 11-bit field (R122). -/
theorem lookup_eq_none_iff (keymap : List KeyEntry) (key : Key) :
    lookup keymap key = none ↔ ∀ e ∈ keymap, e.code ≠ key.setWidth 11 := by
  induction keymap with
  | nil => simp [lookup]
  | cons e rest ih =>
    by_cases h : e.code = key.setWidth 11
    · simp [lookup, h]
    · simp [lookup, h, ih]

/-! ### The lines of R73 -/

theorem decode_xkey_escape (c : DecodeContext) {w : XkeyWord} (h : xkeyByte w = pfxEscape) :
    decode c (.xkey w) = .ok (.xlPfxE0 (xkeyRel w) (xkeyEsc w)) := by
  simp only [decode, decodeXkey, if_pos h]

theorem decode_xkey_releasePrefix (c : DecodeContext) {w : XkeyWord} (h : xkeyByte w = pfxRelease) :
    decode c (.xkey w) = .ok (.xlPfxF0 (xkeyRel w) (xkeyEsc w)) := by
  have hE : xkeyByte w ≠ pfxEscape := by rw [h]; decide
  simp only [decode, decodeXkey, if_neg hE, if_pos h]

theorem decode_xkey_release (c : DecodeContext) {w : XkeyWord} (hE : xkeyByte w ≠ pfxEscape) (hF : xkeyByte w ≠ pfxRelease)
    (hrel : xkeyRel w = true) :
    decode c (.xkey w) = .ok (decodeRelease c.params.mods (xkeyEsc w) (xkeyByte w)) := by
  simp only [decode, decodeXkey, if_neg hE, if_neg hF, if_pos hrel]

/-- A press whose key is not in the table is decided by the modifier codes (R73 lines 7 and 8). -/
theorem decode_xkey_unlistedPress (c : DecodeContext) {w : XkeyWord} (hE : xkeyByte w ≠ pfxEscape)
    (hF : xkeyByte w ≠ pfxRelease) (hrel : xkeyRel w = false)
    (habsent : lookup c.params.table.keymap (lookupKey (xkeyEsc w) (xkeyByte w)) = none) :
    decode c (.xkey w) = .ok (decodeUnlisted c.params.mods (xkeyEsc w) (xkeyByte w)) := by
  simp only [decode, decodeXkey, decodePress, if_neg hE, if_neg hF, hrel, habsent, Bool.false_eq_true, if_false]

/-! ### The modifier codes, in the order R73 compares them -/

/-- Of distinct codes, the left ctrl key's is neither of the two compared before it (R72). -/
theorem ModCodes.lctrl_ne_of_distinct {m : ModCodes} (h : m.distinct = true) : m.lctrl ≠ m.lshift ∧ m.lctrl ≠ m.rshift := by
  simp only [ModCodes.distinct, ModCodes.toList, decide_eq_true_eq, List.nodup_cons, List.mem_cons, not_or] at h
  obtain ⟨⟨_, hl, _⟩, ⟨hr, _⟩, _⟩ := h
  exact ⟨Ne.symm hl, Ne.symm hr⟩

theorem decodeRelease_lshift {m : ModCodes} {esc : Bool} {b : Byte} (h : m.lshift = lookupKey esc b) :
    decodeRelease m esc b = .xlRelLshift := by
  simp [decodeRelease, h]

theorem decodeRelease_lctrl {m : ModCodes} {esc : Bool} {b : Byte} (hd : m.distinct = true) (h : m.lctrl = lookupKey esc b) :
    decodeRelease m esc b = .xlRelLctrl := by
  obtain ⟨hl, hr⟩ := ModCodes.lctrl_ne_of_distinct hd
  simp [decodeRelease, ← h, hl, hr]

theorem decodeUnlisted_lshift {m : ModCodes} {esc : Bool} {b : Byte} (h : m.lshift = lookupKey esc b) :
    decodeUnlisted m esc b = .xlPrsLshift := by
  simp [decodeUnlisted, h]

theorem decodeUnlisted_lctrl {m : ModCodes} {esc : Bool} {b : Byte} (hd : m.distinct = true) (h : m.lctrl = lookupKey esc b) :
    decodeUnlisted m esc b = .xlPrsLctrl := by
  obtain ⟨hl, hr⟩ := ModCodes.lctrl_ne_of_distinct hd
  simp [decodeUnlisted, ← h, hl, hr]

end Sys2Proof
end

section
/-! PROOFS. What the translator's prefix and left-modifier cases do (R110, R112 to R116, R126, R128), and the columns of
`SELECT` (R123). -/

namespace Sys2Proof.Machine

/-! ### The bits of a modifier field (R15, R82(i)) -/

@[simp] theorem clearBits_leftBit (f : ModField) : clearBits f leftBit = f &&& 0b10#2 := rfl

@[simp] theorem setBits_leftBit (f : ModField) : setBits f leftBit = f ||| 0b01#2 := rfl

@[simp] theorem modActive_eq_true_iff (f : ModField) : modActive f = true ↔ f ≠ 0#2 := by
  simp [modActive]

/-! ### The cases -/

theorem exec_xlIdle (s : State) : exec .xlIdle s = .next s := rfl

theorem exec_xlPfxE0 (rel esc : Bool) (s : State) : exec (.xlPfxE0 rel esc) s = .next (historyUpdate pfxEscape s) := rfl

theorem exec_xlPfxF0 (rel esc : Bool) (s : State) : exec (.xlPfxF0 rel esc) s = .next (historyUpdate pfxRelease s) := rfl

theorem exec_xlRelLshift (s : State) :
    exec .xlRelLshift s = .next (historyUpdate (keyByte s.params.mods.lshift) (releaseShift leftBit s)) := rfl

theorem exec_xlRelLctrl (s : State) :
    exec .xlRelLctrl s = .next (historyUpdate (keyByte s.params.mods.lctrl) (releaseCtrl leftBit s)) := rfl

theorem exec_xlPrsLshift (s : State) :
    exec .xlPrsLshift s = .next (historyUpdate (keyByte s.params.mods.lshift) (pressShift leftBit s)) := rfl

theorem exec_xlPrsLctrl (s : State) :
    exec .xlPrsLctrl s = .next (historyUpdate (keyByte s.params.mods.lctrl) (pressCtrl leftBit s)) := rfl

/-! ### The columns of `SELECT` (R123) -/

/-- Caps-lock acts on this entry: a letter, with caps-lock active. -/
def capsSwaps (s : State) (i : Nat) : Prop := i < nLetters ∧ capsActive s.modCaps = true

theorem isLetter_and_capsActive_iff (s : State) (i : Nat) : (isLetter i && capsActive s.modCaps) = true ↔ capsSwaps s i := by
  simp [isLetter, capsSwaps]

theorem select_of_ctrl {s : State} (i : Nat) (hc : s.modCtrl ≠ 0#2) : select s i = .ctrl := by
  simp [select, hc]

theorem select_of_alt {s : State} (i : Nat) (hc : s.modCtrl = 0#2) (ha : s.modAlt ≠ 0#2) : select s i = .alt := by
  simp [select, hc, ha]

theorem select_of_shift {s : State} {i : Nat} (hc : s.modCtrl = 0#2) (ha : s.modAlt = 0#2) (hs : s.modShift ≠ 0#2) :
    (¬ capsSwaps s i → select s i = .shift) ∧ (capsSwaps s i → select s i = .plain) := by
  rw [← isLetter_and_capsActive_iff]
  constructor <;> intro h <;> simp [select, hc, ha, hs, h]

theorem select_of_none {s : State} {i : Nat} (hc : s.modCtrl = 0#2) (ha : s.modAlt = 0#2) (hs : s.modShift = 0#2) :
    (¬ capsSwaps s i → select s i = .plain) ∧ (capsSwaps s i → select s i = .shift) := by
  rw [← isLetter_and_capsActive_iff]
  constructor <;> intro h <;> simp [select, hc, ha, hs, h]

/-! ### The statements -/

/-- Settles O18. -/
theorem prefixBytesAreOnlyRecorded : Obligations.PrefixBytesAreOnlyRecorded := by
  refine ⟨fun c w => ⟨fun h => ?_, fun h => ?_⟩, fun rel esc s => ⟨exec_xlIdle s, exec_xlPfxE0 rel esc s, exec_xlPfxF0 rel esc s⟩⟩
  · have hbyte : xkeyByte w = pfxEscape := by rw [xkeyByte_eq_mask, h]; rfl
    exact ⟨_, _, decode_xkey_escape c hbyte⟩
  · have hbyte : xkeyByte w = pfxRelease := by rw [xkeyByte_eq_mask, h]; rfl
    exact ⟨_, _, decode_xkey_releasePrefix c hbyte⟩

/-- Settles O19: neither byte is a prefix and bit 9 is set, so the key alone decides. -/
theorem leftShiftAndLeftCtrlReleases : Obligations.LeftShiftAndLeftCtrlReleases := by
  refine ⟨fun c hl hc hd => ⟨?_, ?_⟩, fun s => ⟨exec_xlRelLshift s, exec_xlRelLctrl s⟩⟩
  · have hword : decode c (.xkey 0x212#10) = .ok (decodeRelease c.params.mods false 0x12#8) :=
      decode_xkey_release c (by decide) (by decide) rfl
    rw [hword, decodeRelease_lshift (hl.trans rfl)]
  · have hword : decode c (.xkey 0x214#10) = .ok (decodeRelease c.params.mods false 0x14#8) :=
      decode_xkey_release c (by decide) (by decide) rfl
    rw [hword, decodeRelease_lctrl hd (hc.trans rfl)]

/-- Settles O21: the table lacks the two keys, so the modifier codes decide. -/
theorem leftShiftAndLeftCtrlPresses : Obligations.LeftShiftAndLeftCtrlPresses := by
  refine ⟨fun c hl hc hd habs => ⟨?_, ?_⟩, fun s => ⟨exec_xlPrsLshift s, exec_xlPrsLctrl s⟩⟩
  · have hnone := (lookup_eq_none_iff c.params.table.keymap 0x012#9).mpr fun e he => (habs e he).1
    have hword : decode c (.xkey 0x012#10) = .ok (decodeUnlisted c.params.mods false 0x12#8) :=
      decode_xkey_unlistedPress c (by decide) (by decide) rfl hnone
    rw [hword, decodeUnlisted_lshift (hl.trans rfl)]
  · have hnone := (lookup_eq_none_iff c.params.table.keymap 0x014#9).mpr fun e he => (habs e he).2
    have hword : decode c (.xkey 0x014#10) = .ok (decodeUnlisted c.params.mods false 0x14#8) :=
      decode_xkey_unlistedPress c (by decide) (by decide) rfl hnone
    rw [hword, decodeUnlisted_lctrl hd (hc.trans rfl)]

/-- Settles O28, row by row of the truth table. -/
theorem columnSelectionFollowsTheTruthTable : Obligations.ColumnSelectionFollowsTheTruthTable := fun i _ =>
  ⟨select_of_ctrl i, select_of_alt i, select_of_shift, select_of_none, fun _ => ⟨rfl, rfl, rfl, rfl⟩⟩

end Sys2Proof.Machine
end

section
/-! PROOFS. What the three events' operations answer (R90, R110, R150), and the totality of a step (R180). -/

namespace Sys2Proof.Machine

/-! ### The events' operations -/

/-- `RX_EDGE` keeps, accepts or rejects the shifted window, as its start and stop bits say (R90). -/
theorem exec_rxEdge_cases (d : Bool) (s : State) :
    (winStart (rxInsert s.rxWin d) = false ∧ exec (.rxEdge d) s = .next (keepWindow (rxInsert s.rxWin d) s)) ∨
    (winStart (rxInsert s.rxWin d) = true ∧ winStop (rxInsert s.rxWin d) = false ∧
      exec (.rxEdge d) s = .next (acceptWindow (rxInsert s.rxWin d) s)) ∨
    (winStart (rxInsert s.rxWin d) = true ∧ winStop (rxInsert s.rxWin d) = true ∧
      exec (.rxEdge d) s = .next (rejectWindow (rxInsert s.rxWin d) s)) := by
  simp only [exec, execRxEdge, winStart, winStop]
  cases hstart : (rxInsert s.rxWin d).getLsbD 0
  · exact .inl ⟨rfl, rfl⟩
  · cases hstop : (rxInsert s.rxWin d).getLsbD 10
    · exact .inr (.inl ⟨rfl, rfl, rfl⟩)
    · exact .inr (.inr ⟨rfl, rfl, rfl⟩)

theorem exec_xlPoll (s : State) :
    exec .xlPoll s = .next (if s.params.mbxSplitTake then pollSplit s else pollAtomic s) :=
  (apply_ite Host.Outcome.next _ _ _).symm

theorem exec_txTick (r : Bool) (s : State) :
    exec (.txTick r) s = .next (if s.txCount = 0 then idleTick r s else activeTick s) :=
  (apply_ite Host.Outcome.next _ _ _).symm

/-- Every operation an event triggers is total (R180), in every state; the refusals of log 9 are of rows no event runs. -/
theorem exec_eventInstr_next (e : Event) (s : State) : ∃ t, exec (eventInstr e) s = .next t := by
  cases e with
  | edge d =>
    obtain ⟨_, hkeep⟩ | ⟨_, _, haccept⟩ | ⟨_, _, hreject⟩ := exec_rxEdge_cases d s
    · exact ⟨_, hkeep⟩
    · exact ⟨_, haccept⟩
    · exact ⟨_, hreject⟩
  | poll => exact ⟨_, exec_xlPoll s⟩
  | tick r => exact ⟨_, exec_txTick r s⟩

/-! ### The statement -/

/-- Settles O7: an empty queue changes nothing, and any queued event runs a total operation. -/
theorem everyStepAnswersANextState : Obligations.EveryStepAnswersANextState := by
  intro s
  obtain ⟨_, hidle⟩ | ⟨e, rest, _, hrun⟩ := step_cases s
  · exact ⟨s, hidle⟩
  · obtain ⟨t, ht⟩ := exec_eventInstr_next e { s with events := rest }
    exact ⟨t, hrun.trans ht⟩

end Sys2Proof.Machine
end

section
/-! PROOFS. The decoder and the encoder (R60 to R83): the seven modifier keys as one family, the slot cases as one relation,
and the round trip in both directions. -/

namespace Sys2Proof

/-! ### The seven modifier keys (R72, R73) -/

/-- The modifier keys, in the order in which R73 compares their codes. -/
inductive Modifier where
  | lshift
  | rshift
  | lctrl
  | rctrl
  | lalt
  | ralt
  | caps

namespace Modifier

def all : List Modifier := [.lshift, .rshift, .lctrl, .rctrl, .lalt, .ralt, .caps]

/-- The code of a modifier key (R72). -/
def code (m : ModCodes) : Modifier → Key
  | .lshift => m.lshift
  | .rshift => m.rshift
  | .lctrl => m.lctrl
  | .rctrl => m.rctrl
  | .lalt => m.lalt
  | .ralt => m.ralt
  | .caps => m.caps

/-- The release case of a modifier key (R114 to R120). -/
def releaseInstr : Modifier → Instr
  | .lshift => .xlRelLshift
  | .rshift => .xlRelRshift
  | .lctrl => .xlRelLctrl
  | .rctrl => .xlRelRctrl
  | .lalt => .xlRelLalt
  | .ralt => .xlRelRalt
  | .caps => .xlRelCaps

/-- The press case of a modifier key (R126 to R132). -/
def pressInstr : Modifier → Instr
  | .lshift => .xlPrsLshift
  | .rshift => .xlPrsRshift
  | .lctrl => .xlPrsLctrl
  | .rctrl => .xlPrsRctrl
  | .lalt => .xlPrsLalt
  | .ralt => .xlPrsRalt
  | .caps => .xlPrsCaps

/-- The first modifier whose code is the key. -/
def ofKey (m : ModCodes) (k : Key) : Option Modifier := all.find? (fun q => decide (k = q.code m))

theorem mem_all (q : Modifier) : q ∈ all := by cases q <;> simp [all]

theorem toList_eq_map_code (m : ModCodes) : m.toList = all.map (code m) := rfl

theorem code_mem_toList (m : ModCodes) (q : Modifier) : q.code m ∈ m.toList :=
  List.mem_map_of_mem (mem_all q)

theorem code_of_ofKey {m : ModCodes} {k : Key} {q : Modifier} (h : ofKey m k = some q) : k = q.code m :=
  of_decide_eq_true (List.find?_some h :)

theorem ofKey_eq_none_iff (m : ModCodes) (k : Key) : ofKey m k = none ↔ k ∉ m.toList := by
  simp only [ofKey, List.find?_eq_none, decide_eq_true_eq, toList_eq_map_code, List.mem_map, not_exists, not_and]
  exact forall₂_congr fun q _ => not_congr eq_comm

/-- Distinct codes identify their modifier (R72). -/
theorem code_injective {m : ModCodes} (hd : m.distinct = true) {q q' : Modifier} (h : q.code m = q'.code m) : q = q' :=
  List.inj_on_of_nodup_map (of_decide_eq_true hd : (all.map (code m)).Nodup) (mem_all q) (mem_all q') h

theorem ofKey_code {m : ModCodes} (hd : m.distinct = true) (q : Modifier) : ofKey m (q.code m) = some q := by
  obtain hnone | ⟨q', hsome⟩ := (ofKey m (q.code m)).eq_none_or_eq_some
  · exact absurd (code_mem_toList m q) ((ofKey_eq_none_iff m _).mp hnone)
  · rw [hsome, code_injective hd (code_of_ofKey hsome)]

theorem getD_map_find?_code {α : Type} (m : ModCodes) (k : Key) (f : Modifier → α) (other : α) (qs : List Modifier) :
    ((qs.find? (fun q => decide (k = q.code m))).map f).getD other
      = qs.foldr (fun q rest => if k = q.code m then f q else rest) other := by
  induction qs with
  | nil => rfl
  | cons q qs ih => by_cases h : k = q.code m <;> simp [h, ← ih]

/-- The comparisons of R73 with the seven codes, whatever is selected, are the search for the modifier. -/
theorem comparisons_eq_ofKey {α : Type} (m : ModCodes) (k : Key) (f : Modifier → α) (other : α) :
    (if k = m.lshift then f .lshift else if k = m.rshift then f .rshift else if k = m.lctrl then f .lctrl
      else if k = m.rctrl then f .rctrl else if k = m.lalt then f .lalt else if k = m.ralt then f .ralt
      else if k = m.caps then f .caps else other) = ((ofKey m k).map f).getD other :=
  (getD_map_find?_code m k f other all).symm

theorem encode_releaseInstr (p : Params) (q : Modifier) :
    encode p q.releaseInstr = some (.xkey (xkeyOfKey true (q.code p.mods))) := by cases q <;> rfl

theorem encode_pressInstr (p : Params) (q : Modifier) :
    encode p q.pressInstr = some (.xkey (xkeyOfKey false (q.code p.mods))) := by cases q <;> rfl

theorem wellFormed_releaseInstr (c : DecodeContext) (q : Modifier) :
    q.releaseInstr.wellFormed c = releasable c.params.mods (q.code c.params.mods) := by cases q <;> rfl

theorem wellFormed_pressInstr (c : DecodeContext) (q : Modifier) :
    q.pressInstr.wellFormed c = pressable c.params (q.code c.params.mods) := by cases q <;> rfl

end Modifier

theorem decodeRelease_eq (m : ModCodes) (esc : Bool) (b : Byte) :
    decodeRelease m esc b = ((Modifier.ofKey m (lookupKey esc b)).map Modifier.releaseInstr).getD (.xlRelOther esc b) :=
  Modifier.comparisons_eq_ofKey m (lookupKey esc b) Modifier.releaseInstr _

theorem decodeUnlisted_eq (m : ModCodes) (esc : Bool) (b : Byte) :
    decodeUnlisted m esc b = ((Modifier.ofKey m (lookupKey esc b)).map Modifier.pressInstr).getD (.xlPrsOther esc b) :=
  Modifier.comparisons_eq_ofKey m (lookupKey esc b) Modifier.pressInstr _

theorem notModifier_eq_true_iff (m : ModCodes) (k : Key) : notModifier m k = true ↔ Modifier.ofKey m k = none := by
  simp [notModifier, Modifier.ofKey_eq_none_iff]

/-! ### The words of a key (R66, R67) -/

theorem notPrefix_eq_true_iff (b : Byte) : notPrefix b = true ↔ b ≠ pfxEscape ∧ b ≠ pfxRelease := by
  simp [notPrefix]

theorem releasable_eq_true_iff (m : ModCodes) (k : Key) :
    releasable m k = true ↔ m.distinct = true ∧ notPrefix (keyByte k) = true := by
  simp [releasable]

theorem pressable_eq_true_iff (p : Params) (k : Key) :
    pressable p k = true ↔ releasable p.mods k = true ∧ lookup p.table.keymap k = none := by
  simp [pressable]

/-- The word of a key, by its flag and its byte. -/
theorem xkeyOfKey_eq_xkeyWord (r : Bool) (k : Key) : xkeyOfKey r k = xkeyWord r (k.getLsbD 8) (keyByte k) := by
  rw [← xkeyOfKey_lookupKey, lookupKey_fields]

/-- The key of a word is its low nine bits. -/
theorem lookupKey_xkey (w : XkeyWord) : lookupKey (xkeyEsc w) (xkeyByte w) = w.setWidth 9 := by
  ext i hi
  interval_cases i <;> simp [lookupKey, xkeyEsc, xkeyByte, bitAt_getElem]

/-! ### The lines of R73 for a word given by its fields -/

theorem decode_releaseWord (c : DecodeContext) {esc : Bool} {b : Byte} (hb : notPrefix b = true) :
    decode c (.xkey (xkeyWord true esc b)) = .ok (decodeRelease c.params.mods esc b) := by
  obtain ⟨hE, hF⟩ := (notPrefix_eq_true_iff b).mp hb
  simpa using decode_xkey_release c (w := xkeyWord true esc b) (by simpa using hE) (by simpa using hF) (by simp)

theorem decode_pressWord (c : DecodeContext) {esc : Bool} {b : Byte} (hb : notPrefix b = true) :
    decode c (.xkey (xkeyWord false esc b)) = .ok (decodePress c esc b) := by
  obtain ⟨hE, hF⟩ := (notPrefix_eq_true_iff b).mp hb
  simp [decode, decodeXkey, hE, hF]

theorem decodePress_unlisted (c : DecodeContext) {esc : Bool} {b : Byte}
    (h : lookup c.params.table.keymap (lookupKey esc b) = none) :
    decodePress c esc b = decodeUnlisted c.params.mods esc b := by
  simp [decodePress, h]

/-- A press of a listed key is the one-byte or the two-byte case (R73 lines 5 and 6). -/
theorem decodePress_listed (c : DecodeContext) {esc : Bool} {b : Byte}
    (h : (lookup c.params.table.keymap (lookupKey esc b)).isSome = true) :
    decodePress c esc b = if twoByteCase c (lookupKey esc b) then .xlPrsFkeyAlt esc b else .xlPrsKey esc b := by
  obtain ⟨⟨i, e⟩, hfound⟩ := Option.isSome_iff_exists.mp h
  simp [decodePress, twoByteCase, hfound]

/-- A modifier's release word selects its release case. -/
theorem decode_releaseInstr (c : DecodeContext) (q : Modifier) (h : releasable c.params.mods (q.code c.params.mods) = true) :
    decode c (.xkey (xkeyOfKey true (q.code c.params.mods))) = .ok q.releaseInstr := by
  obtain ⟨hd, hb⟩ := (releasable_eq_true_iff _ _).mp h
  rw [xkeyOfKey_eq_xkeyWord, decode_releaseWord c hb, decodeRelease_eq, lookupKey_fields, Modifier.ofKey_code hd]
  rfl

/-- A modifier's press word selects its press case where the table lacks its code. -/
theorem decode_pressInstr (c : DecodeContext) (q : Modifier) (h : pressable c.params (q.code c.params.mods) = true) :
    decode c (.xkey (xkeyOfKey false (q.code c.params.mods))) = .ok q.pressInstr := by
  obtain ⟨hrel, hnone⟩ := (pressable_eq_true_iff _ _).mp h
  obtain ⟨hd, hb⟩ := (releasable_eq_true_iff _ _).mp hrel
  rw [xkeyOfKey_eq_xkeyWord, decode_pressWord c hb, decodePress_unlisted c (by rwa [lookupKey_fields]), decodeUnlisted_eq,
    lookupKey_fields, Modifier.ofKey_code hd]
  rfl

theorem decode_relOther (c : DecodeContext) {esc : Bool} {b : Byte} (h : (Instr.xlRelOther esc b).wellFormed c = true) :
    decode c (.xkey (xkeyWord true esc b)) = .ok (.xlRelOther esc b) := by
  obtain ⟨hb, hkey⟩ : notPrefix b = true ∧ notModifier c.params.mods (lookupKey esc b) = true := by
    simpa [Instr.wellFormed] using h
  rw [decode_releaseWord c hb, decodeRelease_eq, (notModifier_eq_true_iff _ _).mp hkey]
  rfl

theorem decode_prsOther (c : DecodeContext) {esc : Bool} {b : Byte} (h : (Instr.xlPrsOther esc b).wellFormed c = true) :
    decode c (.xkey (xkeyWord false esc b)) = .ok (.xlPrsOther esc b) := by
  obtain ⟨⟨hb, hnone⟩, hkey⟩ : (notPrefix b = true ∧ lookup c.params.table.keymap (lookupKey esc b) = none) ∧
      notModifier c.params.mods (lookupKey esc b) = true := by
    simpa [Instr.wellFormed] using h
  rw [decode_pressWord c hb, decodePress_unlisted c hnone, decodeUnlisted_eq, (notModifier_eq_true_iff _ _).mp hkey]
  rfl

theorem wellFormed_xlPrsKey_iff (c : DecodeContext) (esc : Bool) (b : Byte) : (Instr.xlPrsKey esc b).wellFormed c = true ↔
    notPrefix b = true ∧ (lookup c.params.table.keymap (lookupKey esc b)).isSome = true ∧
      twoByteCase c (lookupKey esc b) = false := by
  simp [Instr.wellFormed, and_assoc]

theorem wellFormed_xlPrsFkeyAlt_iff (c : DecodeContext) (esc : Bool) (b : Byte) :
    (Instr.xlPrsFkeyAlt esc b).wellFormed c = true ↔ notPrefix b = true ∧ twoByteCase c (lookupKey esc b) = true := by
  simp [Instr.wellFormed]

/-- The two-byte case has its function-key entry (R73 line 6). -/
theorem exists_entry_of_twoByteCase {c : DecodeContext} {k : Key} (h : twoByteCase c k = true) :
    ∃ i e, lookup c.params.table.keymap k = some (i, e) ∧ inFkeyRange c.params.table i = true := by
  simp only [twoByteCase, Bool.and_eq_true, Option.any_eq_true] at h
  obtain ⟨⟨⟨i, e⟩, hfound, hrange⟩, _⟩ := h
  exact ⟨i, e, hfound, hrange⟩

theorem decode_prsKey (c : DecodeContext) {esc : Bool} {b : Byte} (h : (Instr.xlPrsKey esc b).wellFormed c = true) :
    decode c (.xkey (xkeyWord false esc b)) = .ok (.xlPrsKey esc b) := by
  obtain ⟨hb, hsome, htwo⟩ := (wellFormed_xlPrsKey_iff c esc b).mp h
  rw [decode_pressWord c hb, decodePress_listed c hsome, htwo]
  rfl

theorem decode_prsFkeyAlt (c : DecodeContext) {esc : Bool} {b : Byte} (h : (Instr.xlPrsFkeyAlt esc b).wellFormed c = true) :
    decode c (.xkey (xkeyWord false esc b)) = .ok (.xlPrsFkeyAlt esc b) := by
  obtain ⟨hb, htwo⟩ := (wellFormed_xlPrsFkeyAlt_iff c esc b).mp h
  obtain ⟨i, e, hfound, _⟩ := exists_entry_of_twoByteCase htwo
  rw [decode_pressWord c hb, decodePress_listed c (by simp [hfound]), htwo]
  rfl

/-! ### The slot cases (R77, R78) -/

/-- The case each value of `tx_count` selects: R78, line by line. -/
inductive SlotCase (launch : Bool) : TickCount → Instr → Prop
  | idle (h : launch = false) : SlotCase launch 0 .txIdleHold
  | start (h : launch = true) : SlotCase launch 0 .txStart
  | startHold (slot : Fin 3) : SlotCase launch (startHoldSlot slot) (.txStartHold slot)
  | dataP0 (bit : Fin 8) : SlotCase launch (dataSlot bit 0) (.txDataP0 bit)
  | dataP1 (bit : Fin 8) : SlotCase launch (dataSlot bit 1) (.txDataP1 bit)
  | dataP2 (bit : Fin 8) : SlotCase launch (dataSlot bit 2) (.txDataP2 bit)
  | dataP3 (bit : Fin 8) : SlotCase launch (dataSlot bit 3) (.txDataP3 bit)
  | stopP0 : SlotCase launch 36 .txStopP0
  | stopP1 : SlotCase launch 37 .txStopP1
  | stopP2 : SlotCase launch 38 .txStopP2
  | stopP3 : SlotCase launch 39 .txStopP3

theorem slotCase_decodeData (launch : Bool) (bit : Fin 8) (phase : Fin 4) :
    SlotCase launch (dataSlot bit phase) (decodeData bit phase.val) :=
  match phase with
  | 0 => .dataP0 bit
  | 1 => .dataP1 bit
  | 2 => .dataP2 bit
  | 3 => .dataP3 bit

/-- The slot map of the decoder is the relation. -/
theorem slotCase_decodeCount (launch : Bool) (n : TickCount) : SlotCase launch n (decodeCount launch n) := by
  unfold decodeCount
  split_ifs with h0 hl hhold hdata h36 h37 h38
  · rw [show n = 0 from Fin.ext h0]; exact .start hl
  · rw [show n = 0 from Fin.ext h0]; exact .idle (by simpa using hl)
  · have hn : n = startHoldSlot ⟨n.val - 1, by omega⟩ := Fin.ext (by simp only [startHoldSlot]; omega)
    rw (occs := .pos [1]) [hn]
    exact .startHold _
  · have hn : n = dataSlot ⟨n.val / 4 - 1, by omega⟩ ⟨n.val % 4, by omega⟩ := Fin.ext (by simp only [dataSlot]; omega)
    rw (occs := .pos [1]) [hn]
    exact slotCase_decodeData launch _ ⟨n.val % 4, by omega⟩
  · rw [show n = 36 from Fin.ext h36]; exact .stopP0
  · rw [show n = 37 from Fin.ext h37]; exact .stopP1
  · rw [show n = 38 from Fin.ext h38]; exact .stopP2
  · rw [show n = 39 from Fin.ext (by change n.val = 39; omega)]; exact .stopP3

namespace SlotCase

variable {launch : Bool} {n : TickCount} {i : Instr}

theorem encode_eq (p : Params) (h : SlotCase launch n i) : encode p i = some (.txslot (slotWord n)) := by
  cases h <;> rfl

theorem wellFormed {c : DecodeContext} (h : SlotCase c.launch n i) : i.wellFormed c = true := by
  cases h with
  | idle h => simp [Instr.wellFormed, h]
  | start h => exact h
  | _ => rfl

/-- No slot has two cases. -/
theorem decodeCount_eq (h : SlotCase launch n i) : decodeCount launch n = i := by
  cases h with
  | idle h => subst h; rfl
  | start h => subst h; rfl
  | startHold slot => revert launch slot; decide
  | dataP0 bit => revert launch bit; decide
  | dataP1 bit => revert launch bit; decide
  | dataP2 bit => revert launch bit; decide
  | dataP3 bit => revert launch bit; decide
  | _ => rfl

end SlotCase

theorem toNat_slotWord (n : TickCount) : (slotWord n).toNat = n.val := by
  simp only [slotWord, BitVec.toNat_ofNat]
  omega

theorem decode_slotWord (c : DecodeContext) (n : TickCount) : decode c (.txslot (slotWord n)) = .ok (decodeCount c.launch n) := by
  have hn : (slotWord n).toNat < 40 := by rw [toNat_slotWord]; exact n.isLt
  simp [decode, decodeTxslot, toNat_slotWord]

theorem SlotCase.decode_eq {c : DecodeContext} {n : TickCount} {i : Instr} (h : SlotCase c.launch n i) :
    decode c (.txslot (slotWord n)) = .ok i := by
  rw [decode_slotWord, h.decodeCount_eq]

/-! ### The windows (R64) and the trace characters (R83) -/

theorem decodePs2win_shift (a b : Bool) (d : Byte) : decodePs2win (ps2Word a b d false) = .rxShift a b d := by
  simp [decodePs2win]

theorem decodePs2win_accept (b : Bool) (d : Byte) : decodePs2win (ps2Word false b d true) = .rxAccept b d := by
  simp [decodePs2win]

theorem decodePs2win_reject (b : Bool) (d : Byte) : decodePs2win (ps2Word true b d true) = .rxReject b d := by
  simp [decodePs2win]

/-- The case of a window is well formed and has that window as its word. -/
theorem encode_decodePs2win (c : DecodeContext) (w : Window) :
    (decodePs2win w).wellFormed c = true ∧ encode c.params (decodePs2win w) = some (.ps2win w) := by
  rw [← ps2Word_fields w]
  cases winStart w
  · rw [decodePs2win_shift]; exact ⟨rfl, rfl⟩
  · cases winStop w
    · rw [decodePs2win_accept]; exact ⟨rfl, rfl⟩
    · rw [decodePs2win_reject]; exact ⟨rfl, rfl⟩

/-- The five characters and their events. -/
theorem decodeLine_eq_ok_iff (b : Byte) (e : Event) :
    decodeLine b = .ok e ↔ (b, e) ∈ [(0x30#8, Event.edge false), (0x31#8, Event.edge true), (0x50#8, Event.poll),
      (0x74#8, Event.tick false), (0x54#8, Event.tick true)] := by
  unfold decodeLine
  split_ifs with h1 h2 h3 h4 h5 <;> simp [*, eq_comm]

theorem decodeLine_eq_error {b : Byte} (h : b ∉ [0x30#8, 0x31#8, 0x50#8, 0x74#8, 0x54#8]) :
    decodeLine b = .error (.notATraceLine b) := by
  simp only [List.mem_cons, List.not_mem_nil, or_false, not_or] at h
  simp [decodeLine, h]

theorem decode_line (c : DecodeContext) {b : Byte} {e : Event} (h : decodeLine b = .ok e) :
    decode c (.line b) = .ok (eventInstr e) := by
  simp [decode, h, Except.map]

theorem encode_eventInstr (c : DecodeContext) {b : Byte} {e : Event} (h : decodeLine b = .ok e) :
    (eventInstr e).wellFormed c = true ∧ encode c.params (eventInstr e) = some (.line b) := by
  simp only [decodeLine_eq_ok_iff, List.mem_cons, Prod.mk.injEq, List.not_mem_nil, or_false] at h
  obtain ⟨rfl, rfl⟩ | ⟨rfl, rfl⟩ | ⟨rfl, rfl⟩ | ⟨rfl, rfl⟩ | ⟨rfl, rfl⟩ := h <;> exact ⟨rfl, rfl⟩

/-! ### The cases of an `XKEY` word have it as their word -/

theorem encode_decodeRelease (c : DecodeContext) {esc : Bool} {b : Byte} (hd : c.params.mods.distinct = true)
    (hb : notPrefix b = true) :
    (decodeRelease c.params.mods esc b).wellFormed c = true ∧
      encode c.params (decodeRelease c.params.mods esc b) = some (.xkey (xkeyWord true esc b)) := by
  rw [decodeRelease_eq]
  cases hq : Modifier.ofKey c.params.mods (lookupKey esc b) with
  | none => exact ⟨by simp [Instr.wellFormed, hb, notModifier_eq_true_iff, hq], rfl⟩
  | some q =>
    have hcode := Modifier.code_of_ofKey hq
    refine ⟨(Modifier.wellFormed_releaseInstr c q).trans ((releasable_eq_true_iff _ _).mpr ⟨hd, ?_⟩), ?_⟩
    · rwa [← hcode, keyByte_lookupKey]
    · rw [← xkeyOfKey_lookupKey, hcode]
      exact Modifier.encode_releaseInstr c.params q

theorem encode_decodePress (c : DecodeContext) {esc : Bool} {b : Byte} (hd : c.params.mods.distinct = true)
    (hb : notPrefix b = true) :
    (decodePress c esc b).wellFormed c = true ∧ encode c.params (decodePress c esc b) = some (.xkey (xkeyWord false esc b)) := by
  cases hfound : lookup c.params.table.keymap (lookupKey esc b) with
  | some p =>
    rw [decodePress_listed c (by simp [hfound])]
    cases htwo : twoByteCase c (lookupKey esc b)
    · exact ⟨by simp [Instr.wellFormed, hb, hfound, htwo], rfl⟩
    · exact ⟨by simp [Instr.wellFormed, hb, htwo], rfl⟩
  | none =>
    rw [decodePress_unlisted c hfound, decodeUnlisted_eq]
    cases hq : Modifier.ofKey c.params.mods (lookupKey esc b) with
    | none => exact ⟨by simp [Instr.wellFormed, hb, hfound, notModifier_eq_true_iff, hq], rfl⟩
    | some q =>
      have hcode := Modifier.code_of_ofKey hq
      refine ⟨(Modifier.wellFormed_pressInstr c q).trans ((pressable_eq_true_iff _ _).mpr
        ⟨(releasable_eq_true_iff _ _).mpr ⟨hd, ?_⟩, hcode ▸ hfound⟩), ?_⟩
      · rwa [← hcode, keyByte_lookupKey]
      · rw [← xkeyOfKey_lookupKey, hcode]
        exact Modifier.encode_pressInstr c.params q

theorem encode_decodeXkey (c : DecodeContext) (w : XkeyWord) (hd : c.params.mods.distinct = true) :
    (decodeXkey c w).wellFormed c = true ∧ encode c.params (decodeXkey c w) = some (.xkey w) := by
  have hw := xkeyWord_fields w
  unfold decodeXkey
  split_ifs with hE hF hrel
  · exact ⟨rfl, congrArg (some ∘ CodeWord.xkey) (hE ▸ hw)⟩
  · exact ⟨rfl, congrArg (some ∘ CodeWord.xkey) (hF ▸ hw)⟩
  · have hb := (notPrefix_eq_true_iff _).mpr ⟨hE, hF⟩
    rw [hrel] at hw
    simpa [hw] using encode_decodeRelease c (esc := xkeyEsc w) hd hb
  · have hb := (notPrefix_eq_true_iff _).mpr ⟨hE, hF⟩
    rw [Bool.eq_false_of_not_eq_true hrel] at hw
    simpa [hw] using encode_decodePress c (esc := xkeyEsc w) hd hb

theorem encode_decodeTxslot (c : DecodeContext) {w : SlotWord} {i : Instr} (h : decodeTxslot c.launch w = .ok i) :
    i.wellFormed c = true ∧ encode c.params i = some (.txslot w) := by
  by_cases hw : w.toNat < 40
  · have hi : decodeCount c.launch ⟨w.toNat, hw⟩ = i := by simpa [decodeTxslot, hw] using h
    have hcase : SlotCase c.launch ⟨w.toNat, hw⟩ i := hi ▸ slotCase_decodeCount _ _
    have hword : slotWord ⟨w.toNat, hw⟩ = w := BitVec.eq_of_toNat_eq (toNat_slotWord _)
    exact ⟨hcase.wellFormed, hword ▸ hcase.encode_eq c.params⟩
  · simp [decodeTxslot, hw] at h

/-! ### The statements -/

/-- Settles O1, row by row: a modifier's word selects that modifier, a slot's word its slot, and every other word shows its
operands in its fields. -/
theorem decodeOfEncodeIsTheInstruction : Obligations.DecodeOfEncodeIsTheInstruction := by
  intro c i w hwf henc
  -- the operations without a word drop out here
  cases i <;> cases henc
  case rxShift a b d => exact congrArg Except.ok (decodePs2win_shift a b d)
  case rxAccept b d => exact congrArg Except.ok (decodePs2win_accept b d)
  case rxReject b d => exact congrArg Except.ok (decodePs2win_reject b d)
  case xlPfxE0 r e => simp [decode_xkey_escape]
  case xlPfxF0 r e => simp [decode_xkey_releasePrefix]
  case xlRelLshift => exact decode_releaseInstr c .lshift hwf
  case xlRelRshift => exact decode_releaseInstr c .rshift hwf
  case xlRelLctrl => exact decode_releaseInstr c .lctrl hwf
  case xlRelRctrl => exact decode_releaseInstr c .rctrl hwf
  case xlRelLalt => exact decode_releaseInstr c .lalt hwf
  case xlRelRalt => exact decode_releaseInstr c .ralt hwf
  case xlRelCaps => exact decode_releaseInstr c .caps hwf
  case xlRelOther e b => exact decode_relOther c hwf
  case xlPrsKey e b => exact decode_prsKey c hwf
  case xlPrsFkeyAlt e b => exact decode_prsFkeyAlt c hwf
  case xlPrsLshift => exact decode_pressInstr c .lshift hwf
  case xlPrsRshift => exact decode_pressInstr c .rshift hwf
  case xlPrsLctrl => exact decode_pressInstr c .lctrl hwf
  case xlPrsRctrl => exact decode_pressInstr c .rctrl hwf
  case xlPrsLalt => exact decode_pressInstr c .lalt hwf
  case xlPrsRalt => exact decode_pressInstr c .ralt hwf
  case xlPrsCaps => exact decode_pressInstr c .caps hwf
  case xlPrsOther e b => exact decode_prsOther c hwf
  case txIdleHold => exact (SlotCase.idle (by simpa [Instr.wellFormed] using hwf)).decode_eq
  case txStart => exact (SlotCase.start hwf).decode_eq
  case txStartHold slot => exact (SlotCase.startHold slot).decode_eq
  case txDataP0 bit => exact (SlotCase.dataP0 bit).decode_eq
  case txDataP1 bit => exact (SlotCase.dataP1 bit).decode_eq
  case txDataP2 bit => exact (SlotCase.dataP2 bit).decode_eq
  case txDataP3 bit => exact (SlotCase.dataP3 bit).decode_eq
  case txStopP0 => exact SlotCase.stopP0.decode_eq
  case txStopP1 => exact SlotCase.stopP1.decode_eq
  case txStopP2 => exact SlotCase.stopP2.decode_eq
  case txStopP3 => exact SlotCase.stopP3.decode_eq
  case rxEdge d => cases d <;> rfl
  case xlPoll => rfl
  case txTick r => cases r <;> rfl

/-- Settles O2, by the format of the word. -/
theorem encodeOfDecodeIsTheWord : Obligations.EncodeOfDecodeIsTheWord := by
  intro c i w hd hdec
  cases w with
  | ps2win w => exact Except.ok.inj hdec ▸ encode_decodePs2win c w
  | xkey w => exact Except.ok.inj hdec ▸ encode_decodeXkey c w hd
  | txslot w => exact encode_decodeTxslot c hdec
  | line b =>
    cases hline : decodeLine b with
    | ok e => exact Except.ok.inj ((decode_line c hline).symm.trans hdec) ▸ encode_eventInstr c hline
    | error _ => simp [decode, hline, Except.map] at hdec

/-- Settles O3. -/
theorem onlyUnreachableSlotsAndStrayCharactersAreRefused : Obligations.OnlyUnreachableSlotsAndStrayCharactersAreRefused := by
  intro c w
  cases w with
  | ps2win w => exact ⟨_, rfl⟩
  | xkey w => exact ⟨_, rfl⟩
  | txslot n =>
    refine ⟨fun h => ⟨_, dif_pos h⟩, fun h => dif_neg (Nat.not_lt.mpr h)⟩
  | line b =>
    refine ⟨fun h => ?_, fun h => by simp [decode, decodeLine_eq_error h, Except.map]⟩
    simp only [List.mem_cons, List.not_mem_nil, or_false] at h
    obtain rfl | rfl | rfl | rfl | rfl := h <;> exact ⟨_, rfl⟩

/-- Settles O4: the decoder evaluates each word to its row. -/
theorem writtenOutWordsDecode : Obligations.WrittenOutWordsDecode := by
  unfold Obligations.WrittenOutWordsDecode
  decide

theorem lookup_cons_of_eq {e : KeyEntry} (rest : List KeyEntry) {key : Key} (h : e.code = key.setWidth 11) :
    lookup (e :: rest) key = some (0, e) := by
  simp [lookup, h]

theorem lookup_cons_of_ne {e : KeyEntry} (rest : List KeyEntry) {key : Key} (h : e.code ≠ key.setWidth 11) :
    lookup (e :: rest) key = (lookup rest key).map (fun (i, f) => (i + 1, f)) := by
  simp [lookup, h]

/-- `LOOKUP` finds the first entry whose code is the key (R122). -/
theorem lookup_eq_some_iff (keymap : List KeyEntry) (key : Key) (i : Nat) (e : KeyEntry) :
    lookup keymap key = some (i, e) ↔
      keymap[i]? = some e ∧ e.code = key.setWidth 11 ∧ ∀ j f, j < i → keymap[j]? = some f → f.code ≠ key.setWidth 11 := by
  induction keymap generalizing i with
  | nil => simp [lookup]
  | cons e₀ rest ih =>
    by_cases h : e₀.code = key.setWidth 11
    · rw [lookup_cons_of_eq rest h]
      constructor
      · rintro ⟨⟩
        exact ⟨rfl, h, fun j _ hj => absurd hj (Nat.not_lt_zero j)⟩
      · rintro ⟨hi, -, hfirst⟩
        cases i with
        | zero => simpa using hi
        | succ i => exact absurd h (hfirst 0 e₀ i.succ_pos rfl)
    · rw [lookup_cons_of_ne rest h]
      cases i with
      | zero =>
        constructor
        · simp
        · rintro ⟨⟨⟩, hcode, -⟩
          exact absurd hcode h
      | succ i =>
        have hshift : (lookup rest key).map (fun (i, f) => (i + 1, f)) = some (i + 1, e) ↔ lookup rest key = some (i, e) := by
          simp
        rw [hshift, ih i, List.getElem?_cons_succ]
        refine and_congr_right fun _ => and_congr_right fun _ => ⟨fun hfirst j f hj hf => ?_, fun hfirst j f hj hf =>
          hfirst (j + 1) f (Nat.succ_lt_succ hj) hf⟩
        cases j with
        | zero => exact Option.some.inj hf ▸ h
        | succ j => exact hfirst j f (Nat.lt_of_succ_lt_succ hj) hf

/-- Settles O27. -/
theorem lookupReturnsTheLeastIndex : Obligations.LookupReturnsTheLeastIndex := fun keymap key =>
  ⟨lookup_eq_some_iff keymap key, lookup_eq_none_iff keymap key⟩

end Sys2Proof
end

section
/-! PROOFS. The ring buffer (R140 to R144): the queue of live bytes under a push, a pair and a pop. -/

namespace Sys2Proof.Machine

/-! ### The queue of live bytes -/

@[simp] theorem length_queue (s : State) : (queue s).length = (s.rbIn - s.rbOut).toNat := by
  simp [queue, rbCount]

theorem length_queue_le (s : State) : (queue s).length ≤ 15 := by
  rw [length_queue]
  omega

/-- `RB_PUSH` finds the ring full exactly with fifteen bytes queued (R140). -/
theorem full_iff (s : State) : s.rbIn + 1#4 = s.rbOut ↔ 14 < (queue s).length := by
  rw [length_queue]
  constructor <;> intro h <;> bv_omega

/-- `RB_PUSH2` finds fewer than two free slots exactly with fourteen or more bytes queued (R141). -/
theorem pairFull_iff (s : State) : 14#4 ≤ rbCount s ↔ 13 < (queue s).length := by
  rw [length_queue, rbCount, BitVec.le_def]
  rfl

theorem ne_full_of_not_pairFull {s : State} (h : ¬ 14#4 ≤ rbCount s) : s.rbIn + 1#4 ≠ s.rbOut := by
  rw [pairFull_iff] at h
  rw [Ne, full_iff]
  omega

/-- The queue is what the live cells read as. -/
theorem queue_congr {s t : State} (hmem : ∀ i, rbRead t.rbMem i = rbRead s.rbMem i) (hin : t.rbIn = s.rbIn)
    (hout : t.rbOut = s.rbOut) : queue t = queue s := by
  simp [queue, rbCount, hmem, hin, hout]

theorem queue_push {s t : State} {v : Byte} (hroom : s.rbIn + 1#4 ≠ s.rbOut) (hmem : t.rbMem = rbWrite s.rbMem s.rbIn v)
    (hin : t.rbIn = s.rbIn + 1#4) (hout : t.rbOut = s.rbOut) : queue t = queue s ++ [v] := by
  have hcount : (rbCount t).toNat = (rbCount s).toNat + 1 := by
    simp only [rbCount, hin, hout]
    bv_omega
  have hnew : s.rbOut + rbCount s = s.rbIn := by
    simp only [rbCount]
    bv_omega
  have hold : ∀ k ∈ List.range (rbCount s).toNat, rbRead t.rbMem (t.rbOut + BitVec.ofNat 4 k)
      = rbRead s.rbMem (s.rbOut + BitVec.ofNat 4 k) := by
    intro k hk
    rw [List.mem_range] at hk
    have hother : s.rbOut + BitVec.ofNat 4 k ≠ s.rbIn := by
      simp only [rbCount] at hk
      bv_omega
    rw [hmem, hout, rbRead_rbWrite_other _ _ hother]
  rw [queue, hcount, List.range_succ, List.map_append, List.map_congr_left hold]
  simp [queue, hmem, hout, hnew]

theorem queue_push2 {s t : State} {v1 v2 : Byte} (hroom : ¬ 14#4 ≤ rbCount s)
    (hmem : t.rbMem = rbWrite (rbWrite s.rbMem s.rbIn v1) (s.rbIn + 1#4) v2) (hin : t.rbIn = s.rbIn + 2#4)
    (hout : t.rbOut = s.rbOut) : queue t = queue s ++ [v1, v2] := by
  let u : State := { s with rbMem := rbWrite s.rbMem s.rbIn v1, rbIn := s.rbIn + 1#4 }
  have hfirst : queue u = queue s ++ [v1] := queue_push (ne_full_of_not_pairFull hroom) rfl rfl rfl
  have hroom' : u.rbIn + 1#4 ≠ u.rbOut := by
    rw [pairFull_iff] at hroom
    rw [Ne, full_iff, hfirst, List.length_append]
    simp only [List.length_singleton]
    omega
  have hsecond : queue t = queue u ++ [v2] :=
    queue_push hroom' hmem (by rw [hin]; simp only [u]; bv_omega) hout
  rw [hsecond, hfirst, List.append_assoc]
  rfl

theorem queue_pop {s t : State} (hne : s.rbIn ≠ s.rbOut) (hmem : t.rbMem = s.rbMem) (hin : t.rbIn = s.rbIn)
    (hout : t.rbOut = s.rbOut + 1#4) : queue s = rbRead s.rbMem s.rbOut :: queue t := by
  have hcount : (rbCount s).toNat = (rbCount t).toNat + 1 := by
    simp only [rbCount, hin, hout]
    bv_omega
  have hcell : ∀ k, s.rbOut + BitVec.ofNat 4 (k + 1) = t.rbOut + BitVec.ofNat 4 k := by
    intro k
    rw [hout, Nat.add_comm k, BitVec.ofNat_add, BitVec.add_assoc]
  rw [queue, hcount, List.range_succ_eq_map]
  simp [queue, hmem, hcell, Function.comp_def]

theorem queue_eq_nil_of_empty {s : State} (h : s.rbIn = s.rbOut) : queue s = [] := by
  simp [← List.length_eq_zero_iff, h]

/-! ### The rows of the ring -/

theorem exec_rbPush (v : Byte) (s : State) :
    exec (.rbPush v) s = .next (note (.resultBool (rbPush v s).1) (rbPush v s).2) := rfl

theorem exec_rbPush2 (v1 v2 : Byte) (s : State) :
    exec (.rbPush2 v1 v2) s = .next (note (.resultBool (rbPush2 v1 v2 s).1) (rbPush2 v1 v2 s).2) := rfl

theorem exec_rbPop (s : State) : exec .rbPop s = .next (note (.resultByte (rbPop s).1) (rbPop s).2) := rfl

theorem rbPush_full {v : Byte} {s : State} (h : s.rbIn + 1#4 = s.rbOut) : rbPush v s = (false, s) := if_pos h

theorem rbPush_room {v : Byte} {s : State} (h : s.rbIn + 1#4 ≠ s.rbOut) :
    rbPush v s = (true, { s with rbMem := rbWrite s.rbMem s.rbIn v, rbIn := s.rbIn + 1#4 }) := if_neg h

theorem rbPush2_full {v1 v2 : Byte} {s : State} (h : 14#4 ≤ rbCount s) : rbPush2 v1 v2 s = (false, s) := if_pos h

theorem rbPush2_room {v1 v2 : Byte} {s : State} (h : ¬ 14#4 ≤ rbCount s) :
    rbPush2 v1 v2 s =
      (true, { s with rbMem := rbWrite (rbWrite s.rbMem s.rbIn v1) (s.rbIn + 1#4) v2, rbIn := s.rbIn + 2#4 }) := if_neg h

theorem rbPop_empty {s : State} (h : s.rbIn = s.rbOut) : rbPop s = (none, s) := if_pos h

theorem rbPop_nonempty {s : State} (h : s.rbIn ≠ s.rbOut) :
    rbPop s = (some (rbRead s.rbMem s.rbOut), { s with rbOut := s.rbOut + 1#4 }) := if_neg h

/-- A pair written into the ring: each cell reads its byte, and every other cell as before. -/
theorem readAt_pair (m : Memory) (i : RingIndex) (v1 v2 : Byte) :
    (rbWrite (rbWrite m i v1) (i + 1#4) v2).readAt i.toNat = v1 ∧
    (rbWrite (rbWrite m i v1) (i + 1#4) v2).readAt (i + 1#4).toNat = v2 ∧
    ∀ a, a ≠ i.toNat → a ≠ (i + 1#4).toNat → (rbWrite (rbWrite m i v1) (i + 1#4) v2).readAt a = m.readAt a := by
  have hne : i.toNat ≠ (i + 1#4).toNat := by bv_omega
  refine ⟨?_, Memory.readAt_writeAt_same _ _ _, fun a h1 h2 => ?_⟩
  · exact (Memory.readAt_writeAt_other _ _ hne).trans (Memory.readAt_writeAt_same _ _ _)
  · exact (Memory.readAt_writeAt_other _ _ h2).trans (Memory.readAt_writeAt_other _ _ h1)

/-- Settles O39. -/
theorem ringPushWritesOneCell : Obligations.RingPushWritesOneCell := by
  intro v s
  refine ⟨fun h => ?_, fun h => ⟨rbWrite s.rbMem s.rbIn v, ?_, Memory.readAt_writeAt_same _ _ _, fun a ha =>
    Memory.readAt_writeAt_other _ _ ha⟩⟩
  · rw [exec_rbPush, rbPush_full h]; rfl
  · rw [exec_rbPush, rbPush_room h]; rfl

/-- Settles O40. -/
theorem ringPushTwoWritesBothOrNeither : Obligations.RingPushTwoWritesBothOrNeither := by
  intro v1 v2 s
  have hfull := pairFull_iff s
  rw [length_queue] at hfull
  refine ⟨fun h => ?_, fun h => ⟨rbWrite (rbWrite s.rbMem s.rbIn v1) (s.rbIn + 1#4) v2, ?_, readAt_pair _ _ _ _⟩⟩
  · rw [exec_rbPush2, rbPush2_full (hfull.mpr h)]; rfl
  · rw [exec_rbPush2, rbPush2_room (mt hfull.mp (by omega))]; rfl

/-- Settles O41. -/
theorem ringPopReadsTheOldestCell : Obligations.RingPopReadsTheOldestCell := by
  refine fun s => ⟨fun h => ?_, fun h => ?_⟩
  · rw [exec_rbPop, rbPop_empty h]; rfl
  · rw [exec_rbPop, rbPop_nonempty h]; rfl

/-! ### The ring as a bounded queue -/

theorem exec_rbPush_queue (v : Byte) (s : State) : ∃ t, exec (.rbPush v) s = .next t ∧
    ((queue s).length ≤ 14 → t.trace.head? = some (.resultBool true) ∧ queue t = queue s ++ [v]) ∧
    (14 < (queue s).length → t.trace.head? = some (.resultBool false) ∧ queue t = queue s) := by
  refine ⟨_, exec_rbPush v s, fun h => ?_, fun h => ?_⟩
  · have hroom : s.rbIn + 1#4 ≠ s.rbOut := mt (full_iff s).mp (by omega)
    rw [rbPush_room hroom]
    exact ⟨rfl, queue_push hroom rfl rfl rfl⟩
  · rw [rbPush_full ((full_iff s).mpr h)]
    exact ⟨rfl, rfl⟩

theorem exec_rbPush2_queue (v1 v2 : Byte) (s : State) : ∃ t, exec (.rbPush2 v1 v2) s = .next t ∧
    ((queue s).length ≤ 13 → t.trace.head? = some (.resultBool true) ∧ queue t = queue s ++ [v1, v2]) ∧
    (13 < (queue s).length → t.trace.head? = some (.resultBool false) ∧ queue t = queue s) := by
  refine ⟨_, exec_rbPush2 v1 v2 s, fun h => ?_, fun h => ?_⟩
  · have hroom : ¬ 14#4 ≤ rbCount s := mt (pairFull_iff s).mp (by omega)
    rw [rbPush2_room hroom]
    exact ⟨rfl, queue_push2 hroom rfl rfl rfl⟩
  · rw [rbPush2_full ((pairFull_iff s).mpr h)]
    exact ⟨rfl, rfl⟩

theorem exec_rbPop_queue (s : State) : ∃ t, exec .rbPop s = .next t ∧
    t.trace.head? = some (.resultByte (queue s).head?) ∧ queue t = (queue s).tail := by
  refine ⟨_, exec_rbPop s, ?_⟩
  by_cases h : s.rbIn = s.rbOut
  · have hnil := queue_eq_nil_of_empty h
    rw [rbPop_empty h, hnil]
    exact ⟨rfl, hnil⟩
  · rw [rbPop_nonempty h]
    have hqueue := queue_pop (t := note (.resultByte (some (rbRead s.rbMem s.rbOut))) { s with rbOut := s.rbOut + 1#4 })
      h rfl rfl rfl
    rw [hqueue]
    exact ⟨rfl, rfl⟩

/-- Settles O42. -/
theorem ringRefinesABoundedQueue : Obligations.RingRefinesABoundedQueue := fun s =>
  ⟨length_queue_le s, fun v => exec_rbPush_queue v s, fun v1 v2 => exec_rbPush2_queue v1 v2 s, exec_rbPop_queue s⟩

end Sys2Proof.Machine
end

section
/-! PROOFS. What a pass of the translator and each of the three events can do (R90, R110, R150), said once: the next state of
every event as a function, and an inversion of the pass into its cases. -/

namespace Sys2Proof.Modifier

open Sys2Proof.Machine

/-! ### The modifier keys' effects (R114 to R120, R126 to R132) -/

def release : Modifier → State → State
  | .lshift => releaseShift leftBit
  | .rshift => releaseShift rightBit
  | .lctrl => releaseCtrl leftBit
  | .rctrl => releaseCtrl rightBit
  | .lalt => releaseAlt leftBit
  | .ralt => releaseAlt rightBit
  | .caps => releaseCaps

def press : Modifier → State → State
  | .lshift => pressShift leftBit
  | .rshift => pressShift rightBit
  | .lctrl => pressCtrl leftBit
  | .rctrl => pressCtrl rightBit
  | .lalt => pressAlt leftBit
  | .ralt => pressAlt rightBit
  | .caps => pressCaps

theorem exec_releaseInstr (q : Modifier) (s : State) :
    exec q.releaseInstr s = .next (historyUpdate (keyByte (q.code s.params.mods)) (q.release s)) := by
  cases q <;> rfl

theorem exec_pressInstr (q : Modifier) (s : State) :
    exec q.pressInstr s = .next (historyUpdate (keyByte (q.code s.params.mods)) (q.press s)) := by
  cases q <;> rfl

theorem release_eq (q : Modifier) (s : State) :
    ∃ sh ct al ca, q.release s = { s with modShift := sh, modCtrl := ct, modAlt := al, modCaps := ca } := by
  cases q <;> exact ⟨_, _, _, _, rfl⟩

theorem press_eq (q : Modifier) (s : State) :
    ∃ sh ct al ca, q.press s = { s with modShift := sh, modCtrl := ct, modAlt := al, modCaps := ca } := by
  cases q <;> exact ⟨_, _, _, _, rfl⟩

end Sys2Proof.Modifier

namespace Sys2Proof.Machine

theorem releasePath_eq (key : Key) (s : State) :
    releasePath key s = ((Modifier.ofKey s.params.mods key).map (·.release s)).getD s :=
  Modifier.comparisons_eq_ofKey s.params.mods key (·.release s) s

theorem unlistedPath_eq (key : Key) (s : State) :
    unlistedPath key s = ((Modifier.ofKey s.params.mods key).map (·.press s)).getD (note (.eUnknownKey key) s) :=
  Modifier.comparisons_eq_ofKey s.params.mods key (·.press s) _

theorem fkeyDigit_eq (t : KeyTable) (i : Nat) : fkeyDigit t i = BitVec.ofNat 8 (0x30 + (i - t.fkeyBase)) :=
  (BitVec.ofNat_add _ _).symm

/-! ### The pass -/

/-- What a pass over a key can leave before the history update (R112 to R133). -/
inductive PassCase (key : Key) (s : State) : State → Prop
  /-- A byte of a code's start, or a release of a key that is no modifier. -/
  | unchanged : PassCase key s s
  | modifiers (sh ct al ca : ModField) (hkey : key ∈ s.params.mods.toList)
      (habsent : s.hist1 ≠ pfxRelease → lookup s.params.table.keymap key = none) :
      PassCase key s { s with modShift := sh, modCtrl := ct, modAlt := al, modCaps := ca }
  | unknown (hpress : s.hist1 ≠ pfxRelease) (habsent : lookup s.params.table.keymap key = none)
      (hkey : key ∉ s.params.mods.toList) : PassCase key s (note (.eUnknownKey key) s)
  | byte (i : Nat) (e : KeyEntry) (hfound : lookup s.params.table.keymap key = some (i, e))
      (hone : ¬ (inFkeyRange s.params.table i = true ∧ select s i = .alt)) (hpress : s.hist1 ≠ pfxRelease)
      (hroom : s.rbIn + 1#4 ≠ s.rbOut) :
      PassCase key s { s with rbMem := rbWrite s.rbMem s.rbIn (columnByte e (select s i)), rbIn := s.rbIn + 1#4 }
  | byteLost (v : Byte) (hpress : s.hist1 ≠ pfxRelease) (hfull : s.rbIn + 1#4 = s.rbOut) :
      PassCase key s (note (.eRbFull [v]) s)
  | pair (i : Nat) (e : KeyEntry) (hfound : lookup s.params.table.keymap key = some (i, e))
      (hrange : inFkeyRange s.params.table i = true) (halt : select s i = .alt) (hpress : s.hist1 ≠ pfxRelease)
      (hroom : ¬ 14#4 ≤ rbCount s) :
      PassCase key s { s with
        rbMem := rbWrite (rbWrite s.rbMem s.rbIn e.alt) (s.rbIn + 1#4) (fkeyDigit s.params.table i)
        rbIn := s.rbIn + 2#4 }
  | pairLost (v1 v2 : Byte) (hpress : s.hist1 ≠ pfxRelease) (hfull : 14#4 ≤ rbCount s) :
      PassCase key s (note (.eRbFull [v1, v2]) s)

theorem passCase_releasePath (key : Key) {s : State} (h : s.hist1 = pfxRelease) : PassCase key s (releasePath key s) := by
  rw [releasePath_eq]
  cases hq : Modifier.ofKey s.params.mods key with
  | none => exact .unchanged
  | some q =>
    obtain ⟨sh, ct, al, ca, hrel⟩ := q.release_eq s
    have hkey : key ∈ s.params.mods.toList := Modifier.code_of_ofKey hq ▸ q.code_mem_toList s.params.mods
    rw [Option.map_some, Option.getD_some, hrel]
    exact .modifiers sh ct al ca hkey (absurd h)

theorem passCase_unlistedPath {key : Key} {s : State} (h : s.hist1 ≠ pfxRelease)
    (habsent : lookup s.params.table.keymap key = none) : PassCase key s (unlistedPath key s) := by
  rw [unlistedPath_eq]
  cases hq : Modifier.ofKey s.params.mods key with
  | none => exact .unknown h habsent ((Modifier.ofKey_eq_none_iff _ _).mp hq)
  | some q =>
    obtain ⟨sh, ct, al, ca, hprs⟩ := q.press_eq s
    have hkey : key ∈ s.params.mods.toList := Modifier.code_of_ofKey hq ▸ q.code_mem_toList s.params.mods
    rw [Option.map_some, Option.getD_some, hprs]
    exact .modifiers sh ct al ca hkey fun _ => habsent

theorem passCase_pressPath (key : Key) {s : State} (h : s.hist1 ≠ pfxRelease) : PassCase key s (pressPath key s) := by
  obtain ⟨i, e, hfound, hrange, halt, heq⟩ | ⟨i, e, hfound, hone, heq⟩ | ⟨habsent, heq⟩ := pressPath_cases key s <;> rw [heq]
  · obtain ⟨hfull, hemit⟩ | ⟨hroom, hemit⟩ := emit2_cases e.alt (fkeyDigit s.params.table i) s <;> rw [emitFkey, hemit]
    · exact .pairLost _ _ h hfull
    · exact .pair i e hfound hrange halt h hroom
  · obtain ⟨hfull, hemit⟩ | ⟨hroom, hemit⟩ := emit_cases (columnByte e (select s i)) s <;> rw [emitEntry, hemit]
    · exact .byteLost _ h hfull
    · exact .byte i e hfound hone h hroom
  · exact passCase_unlistedPath h habsent

/-- A pass is one of its cases and then the history update (R134). -/
theorem translate_eq (b : Byte) (s : State) : ∃ t, PassCase (formKey s b) s t ∧ translate b s = historyUpdate b t := by
  obtain ⟨_, heq⟩ | ⟨_, _, hrel, heq⟩ | ⟨_, _, hprs, heq⟩ := translate_cases b s
  · exact ⟨s, .unchanged, heq⟩
  · exact ⟨_, passCase_releasePath _ hrel, heq⟩
  · exact ⟨_, passCase_pressPath _ hprs, heq⟩

@[simp] theorem translate_hist1 (b : Byte) (s : State) : (translate b s).hist1 = b := rfl

namespace PassCase

variable {key : Key} {s t : State}

theorem onlyTranslator (h : PassCase key s t) : OnlyTranslator s t := by
  cases h <;> exact ⟨⟨rfl⟩, rfl, rfl, ⟨rfl, rfl, rfl, rfl, rfl⟩, rfl, rfl⟩

theorem hist1_eq (h : PassCase key s t) : t.hist1 = s.hist1 := by cases h <;> rfl

theorem mbxReady_eq (h : PassCase key s t) : t.mbxReady = s.mbxReady := by cases h <;> rfl

theorem takePending_eq (h : PassCase key s t) : t.takePending = s.takePending := by cases h <;> rfl

theorem memory_wf (h : PassCase key s t) (hs : Memory.wf s.rbMem) : Memory.wf t.rbMem := by
  cases h with
  | byte => exact rbWrite_wf _ _ _ hs
  | pair => exact rbWrite_wf _ _ _ (rbWrite_wf _ _ _ hs)
  | _ => exact hs

end PassCase

@[simp] theorem translate_hist2 (b : Byte) (s : State) : (translate b s).hist2 = s.hist1 := by
  obtain ⟨t, hpass, heq⟩ := translate_eq b s
  rw [heq, historyUpdate_hist2, hpass.hist1_eq]

@[simp] theorem translate_mbxReady (b : Byte) (s : State) : (translate b s).mbxReady = s.mbxReady := by
  obtain ⟨t, hpass, heq⟩ := translate_eq b s
  rw [heq, historyUpdate_mbxReady, hpass.mbxReady_eq]

@[simp] theorem translate_takePending (b : Byte) (s : State) : (translate b s).takePending = s.takePending := by
  obtain ⟨t, hpass, heq⟩ := translate_eq b s
  rw [heq, historyUpdate_takePending, hpass.takePending_eq]

theorem onlyTranslator_historyUpdate {s t : State} (b : Byte) (h : OnlyTranslator s t) :
    OnlyTranslator s (historyUpdate b t) := by
  obtain ⟨⟨hwin⟩, hbyte, hout, ⟨hcount, hsr, hclk, hdata, hser⟩, hparams, hevents⟩ := h
  exact ⟨⟨hwin⟩, hbyte, hout, ⟨hcount, hsr, hclk, hdata, hser⟩, hparams, hevents⟩

theorem onlyTranslator_translate (b : Byte) (s : State) : OnlyTranslator s (translate b s) := by
  obtain ⟨t, hpass, heq⟩ := translate_eq b s
  exact heq ▸ onlyTranslator_historyUpdate b hpass.onlyTranslator

/-! ### The poll -/

/-- The next state of `XL_POLL`. -/
def pollNext (s : State) : State := if s.params.mbxSplitTake then pollSplit s else pollAtomic s

theorem exec_xlPoll_eq (s : State) : exec .xlPoll s = .next (pollNext s) := exec_xlPoll s

theorem pollNext_idle {s : State} (hatomic : s.params.mbxSplitTake = false) (hready : s.mbxReady = false) :
    pollNext s = s := by
  simp [pollNext, hatomic, pollAtomic, mbxTake, hready]

theorem pollNext_take {s : State} (hatomic : s.params.mbxSplitTake = false) (hready : s.mbxReady = true) :
    pollNext s = translate s.mbxByte { s with mbxReady := false } := by
  simp [pollNext, hatomic, pollAtomic, mbxTake, hready]

/-- T1 of the split take (R219). -/
theorem pollNext_split_first {s : State} (hsplit : s.params.mbxSplitTake = true) (hpending : s.takePending = false)
    (hready : s.mbxReady = true) : pollNext s = { s with mbxReady := false, takePending := true } := by
  simp [pollNext, hsplit, pollSplit, hpending, hready]

/-- T2 of the split take (R219). -/
theorem pollNext_split_second {s : State} (hsplit : s.params.mbxSplitTake = true) (hpending : s.takePending = true) :
    pollNext s = translate s.mbxByte { s with takePending := false } := by
  simp [pollNext, hsplit, pollSplit, hpending]

theorem pollNext_split_idle {s : State} (hsplit : s.params.mbxSplitTake = true) (hpending : s.takePending = false)
    (hready : s.mbxReady = false) : pollNext s = s := by
  simp [pollNext, hsplit, pollSplit, hpending, hready]

/-- A poll only moves the take, or it moves the take and makes a pass over the byte in the mailbox. The atomic take has no
point between its halves. -/
theorem pollNext_cases (s : State) : ∃ ready pending, (s.params.mbxSplitTake = false → pending = s.takePending) ∧
    (pollNext s = { s with mbxReady := ready, takePending := pending } ∨
      pollNext s = translate s.mbxByte { s with mbxReady := ready, takePending := pending }) := by
  cases hsplit : s.params.mbxSplitTake <;> cases hready : s.mbxReady <;> cases hpending : s.takePending
  case false.false.false | false.false.true =>
    exact ⟨s.mbxReady, s.takePending, fun _ => hpending, .inl (pollNext_idle hsplit hready)⟩
  case false.true.false | false.true.true =>
    exact ⟨false, s.takePending, fun _ => hpending, .inr (pollNext_take hsplit hready)⟩
  case true.false.false => exact ⟨s.mbxReady, s.takePending, nofun, .inl (pollNext_split_idle hsplit hpending hready)⟩
  case true.true.false => exact ⟨false, true, nofun, .inl (pollNext_split_first hsplit hpending hready)⟩
  case true.false.true | true.true.true =>
    exact ⟨s.mbxReady, false, nofun, .inr (pollNext_split_second hsplit hpending)⟩

theorem onlyTranslator_moveTake (s : State) (ready pending : Bool) :
    OnlyTranslator s { s with mbxReady := ready, takePending := pending } :=
  ⟨⟨rfl⟩, rfl, rfl, ⟨rfl, rfl, rfl, rfl, rfl⟩, rfl, rfl⟩

theorem onlyTranslator_pollNext (s : State) : OnlyTranslator s (pollNext s) := by
  obtain ⟨ready, pending, -, heq | heq⟩ := pollNext_cases s <;> rw [heq]
  · exact onlyTranslator_moveTake s ready pending
  · obtain ⟨⟨hwin⟩, hbyte, hout, ⟨hcount, hsr, hclk, hdata, hser⟩, hparams, hevents⟩ :=
      onlyTranslator_translate s.mbxByte { s with mbxReady := ready, takePending := pending }
    exact ⟨⟨hwin⟩, hbyte, hout, ⟨hcount, hsr, hclk, hdata, hser⟩, hparams, hevents⟩

/-! ### The edge -/

theorem getLsbD_rxInsert (w : Window) (d : Bool) {j : Nat} (hj : j < 10) : (rxInsert w d).getLsbD j = w.getLsbD (j + 1) := by
  have h10 : j ≠ 10 := by omega
  simp [rxInsert, bitAt_getLsbD, h10, Nat.add_comm]

@[simp] theorem winStart_rxInsert (w : Window) (d : Bool) : winStart (rxInsert w d) = w.getLsbD 1 :=
  getLsbD_rxInsert w d (by decide)

@[simp] theorem winStop_rxInsert (w : Window) (d : Bool) : winStop (rxInsert w d) = !d := by
  simp [winStop, rxInsert, bitAt_getElem]

@[simp] theorem winData_rxInsert (w : Window) (d : Bool) : winData (rxInsert w d) = w.extractLsb' 2 8 := by
  ext i hi
  have hshift := getLsbD_rxInsert w d (j := 1 + i) (by omega)
  simpa [winData, Nat.add_comm, Nat.add_left_comm] using hshift

theorem rxInsert_eq (w : Window) (d : Bool) : rxInsert w d = (w >>> 1) ||| (if d then 0x000#11 else 0x400#11) := by
  cases d <;> rfl

/-- The next state of `RX_EDGE`, read from the window before the edge: bit 1 is what reaches the low end. -/
def edgeNext (d : Bool) (s : State) : State :=
  if s.rxWin.getLsbD 1 then
    if d then acceptWindow (rxInsert s.rxWin d) s else rejectWindow (rxInsert s.rxWin d) s
  else keepWindow (rxInsert s.rxWin d) s

theorem exec_rxEdge (d : Bool) (s : State) : exec (.rxEdge d) s = .next (edgeNext d s) := by
  obtain ⟨hstart, heq⟩ | ⟨hstart, hstop, heq⟩ | ⟨hstart, hstop, heq⟩ := exec_rxEdge_cases d s <;> rw [heq] <;>
    simp_all [edgeNext]

theorem edgeNext_shift {s : State} (d : Bool) (h : s.rxWin.getLsbD 1 = false) :
    edgeNext d s = keepWindow (rxInsert s.rxWin d) s := by
  rw [edgeNext, h]
  rfl

theorem edgeNext_accept {s : State} (h : s.rxWin.getLsbD 1 = true) :
    edgeNext true s = acceptWindow (rxInsert s.rxWin true) s := by
  rw [edgeNext, h]
  rfl

theorem edgeNext_reject {s : State} (h : s.rxWin.getLsbD 1 = true) :
    edgeNext false s = rejectWindow (rxInsert s.rxWin false) s := by
  rw [edgeNext, h]
  rfl

theorem onlyReceiver_keepWindow (w : Window) (s : State) : OnlyReceiver s (keepWindow w s) :=
  ⟨⟨rfl, rfl⟩, ⟨rfl, rfl, rfl, rfl⟩, ⟨fun _ => rfl⟩, ⟨rfl, rfl⟩, ⟨rfl, rfl, rfl, rfl, rfl⟩, ⟨rfl, rfl, rfl⟩⟩

theorem onlyReceiver_rejectWindow (w : Window) (s : State) : OnlyReceiver s (rejectWindow w s) :=
  ⟨⟨rfl, rfl⟩, ⟨rfl, rfl, rfl, rfl⟩, ⟨fun _ => rfl⟩, ⟨rfl, rfl⟩, ⟨rfl, rfl, rfl, rfl, rfl⟩, ⟨rfl, rfl, rfl⟩⟩

theorem onlyReceiver_acceptWindow (w : Window) (s : State) : OnlyReceiver s (acceptWindow w s) := by
  constructor <;> constructor <;> simp

theorem onlyReceiver_edgeNext (d : Bool) (s : State) : OnlyReceiver s (edgeNext d s) := by
  cases h : s.rxWin.getLsbD 1
  · exact edgeNext_shift d h ▸ onlyReceiver_keepWindow _ s
  · cases d
    · exact edgeNext_reject h ▸ onlyReceiver_rejectWindow _ s
    · exact edgeNext_accept h ▸ onlyReceiver_acceptWindow _ s

/-! ### The tick -/

/-- The state after the launch of the oldest byte (R152). -/
def launched (s : State) : State :=
  { s with
    rbOut := s.rbOut + 1#4
    txSr := rbRead s.rbMem s.rbOut
    tandyClk := (s.params.wave.get 0).clk.level Config.startBit s.tandyClk
    tandyData := (s.params.wave.get 0).data.level Config.startBit s.tandyData
    serOut := false
    txCount := 1
    trace := .launch (rbRead s.rbMem s.rbOut) :: s.trace }

theorem launchByte_eq_launched {s : State} (h : s.rbIn ≠ s.rbOut) : launchByte s = some (launched s) := by
  obtain ⟨hempty, _⟩ | ⟨_, heq⟩ := launchByte_cases s
  · exact absurd hempty h
  · exact heq

/-- The next state of `TX_TICK`. -/
def tickNext (r : Bool) (s : State) : State := if s.txCount = 0 then idleTick r s else activeTick s

theorem exec_txTick_eq (r : Bool) (s : State) : exec (.txTick r) s = .next (tickNext r s) := exec_txTick r s

theorem tickNext_active (r : Bool) {s : State} (h : s.txCount ≠ 0) : tickNext r s = activeTick s := if_neg h

theorem tickNext_launch {s : State} (h0 : s.txCount = 0) (hne : s.rbIn ≠ s.rbOut) : tickNext true s = launched s := by
  have hcan : canLaunch s true = true := by simp [canLaunch, hne]
  simp [tickNext, h0, idleTick, hcan, launchByte_eq_launched hne]

theorem tickNext_hold {r : Bool} {s : State} (h0 : s.txCount = 0) (h : s.rbIn = s.rbOut ∨ r = false) : tickNext r s = s := by
  have hcan : canLaunch s r = false := by
    obtain h | h := h <;> simp [canLaunch, h]
  simp [tickNext, h0, idleTick, hcan]

theorem tickNext_cases (r : Bool) (s : State) :
    (s.txCount = 0 ∧ (s.rbIn = s.rbOut ∨ r = false) ∧ tickNext r s = s) ∨
    (s.txCount = 0 ∧ r = true ∧ s.rbIn ≠ s.rbOut ∧ tickNext r s = launched s) ∨
    (s.txCount ≠ 0 ∧ tickNext r s = activeTick s) := by
  by_cases h0 : s.txCount = 0
  · by_cases h : s.rbIn = s.rbOut ∨ r = false
    · exact .inl ⟨h0, h, tickNext_hold h0 h⟩
    · obtain ⟨hne, hr⟩ : s.rbIn ≠ s.rbOut ∧ r = true := by simpa using h
      subst hr
      exact .inr (.inl ⟨h0, rfl, hne, tickNext_launch h0 hne⟩)
  · exact .inr (.inr ⟨h0, tickNext_active r h0⟩)

theorem onlyEngine_refl (s : State) : OnlyEngine s s :=
  ⟨⟨rfl⟩, ⟨rfl, rfl⟩, ⟨rfl, rfl⟩, ⟨rfl, rfl, rfl, rfl⟩, ⟨fun _ => rfl⟩, rfl, ⟨rfl, rfl, rfl⟩⟩

theorem onlyEngine_launched (s : State) : OnlyEngine s (launched s) :=
  ⟨⟨rfl⟩, ⟨rfl, rfl⟩, ⟨rfl, rfl⟩, ⟨rfl, rfl, rfl, rfl⟩, ⟨fun _ => rfl⟩, rfl, ⟨rfl, rfl, rfl⟩⟩

theorem onlyEngine_activeTick (s : State) : OnlyEngine s (activeTick s) := by
  rw [activeTick_eq]
  exact ⟨⟨rfl⟩, ⟨rfl, rfl⟩, ⟨rfl, rfl⟩, ⟨rfl, rfl, rfl, rfl⟩, ⟨fun _ => rfl⟩, rfl, ⟨rfl, rfl, rfl⟩⟩

theorem onlyEngine_tickNext (r : Bool) (s : State) : OnlyEngine s (tickNext r s) := by
  obtain ⟨_, _, heq⟩ | ⟨_, _, _, heq⟩ | ⟨_, heq⟩ := tickNext_cases r s <;> rw [heq]
  · exact onlyEngine_refl s
  · exact onlyEngine_launched s
  · exact onlyEngine_activeTick s

/-! ### The step and the run -/

/-- The next state of an event's operation. -/
def eventNext (e : Event) (s : State) : State :=
  match e with
  | .edge d => edgeNext d s
  | .poll => pollNext s
  | .tick r => tickNext r s

theorem exec_eventInstr (e : Event) (s : State) : exec (eventInstr e) s = .next (eventNext e s) := by
  cases e with
  | edge d => exact exec_rxEdge d s
  | poll => exact exec_xlPoll_eq s
  | tick r => exact exec_txTick_eq r s

theorem eventNext_params (e : Event) (s : State) : (eventNext e s).params = s.params := by
  cases e with
  | edge d => exact (onlyReceiver_edgeNext d s).inputs.params
  | poll => exact (onlyTranslator_pollNext s).params
  | tick r => exact (onlyEngine_tickNext r s).inputs.params

theorem eventNext_events (e : Event) (s : State) : (eventNext e s).events = s.events := by
  cases e with
  | edge d => exact (onlyReceiver_edgeNext d s).inputs.events
  | poll => exact (onlyTranslator_pollNext s).events
  | tick r => exact (onlyEngine_tickNext r s).inputs.events

theorem step_of_nil {s : State} (h : s.events = []) : step s = .next s := by
  simp [step, takeEvent, h]

theorem step_of_cons {s : State} {e : Event} {rest : List Event} (h : s.events = e :: rest) :
    step s = .next (eventNext e { s with events := rest }) := by
  simp [step, takeEvent, h, exec_eventInstr]

/-- A step that answers `t` leaves `s` as it is with nothing queued, and else `t` is the next state of the first event. -/
theorem eq_of_step {s t : State} (h : step s = .next t) :
    (s.events = [] ∧ t = s) ∨ ∃ e rest, s.events = e :: rest ∧ t = eventNext e { s with events := rest } := by
  cases hev : s.events with
  | nil =>
    rw [step_of_nil hev] at h
    exact .inl ⟨rfl, (Host.Outcome.next.inj h).symm⟩
  | cons e rest =>
    rw [step_of_cons hev] at h
    exact .inr ⟨e, rest, rfl, (Host.Outcome.next.inj h).symm⟩

/-- One event taken from the queue and run. -/
def consume (s : State) (e : Event) : State := eventNext e { s with events := s.events.tail }

theorem consume_events (s : State) (e : Event) : (consume s e).events = s.events.tail := eventNext_events e _

theorem consume_params (s : State) (e : Event) : (consume s e).params = s.params := eventNext_params e _

theorem run_succ_of_step (M : Host.Core) {s t : M.State} (k : Nat) (h : M.step s = .next t) : M.run (k + 1) s = M.run k t := by
  simp [Host.Core.run, h]

/-- A run over the first events of the queue consumes them in order. -/
theorem run_consume (evs rest : List Event) (s : State) (h : s.events = evs ++ rest) :
    ∃ t, Sys2Proof.core.run evs.length s = .next t ∧ t = evs.foldl consume s ∧ t.events = rest := by
  induction evs generalizing s with
  | nil => exact ⟨s, rfl, rfl, h⟩
  | cons e evs ih =>
    have hstep : Sys2Proof.core.step s = .next (consume s e) := by
      rw [consume, h]
      exact step_of_cons h
    have htail : (consume s e).events = evs ++ rest := by
      rw [consume_events, h]
      rfl
    rw [List.length_cons, run_succ_of_step _ _ hstep]
    exact ih (consume s e) htail

/-- Settles O57. -/
theorem eachEventWritesOnlyItsAgentsState : Obligations.EachEventWritesOnlyItsAgentsState := by
  refine fun s t => ⟨fun d h => ?_, fun h => ?_, fun r h => ?_⟩
  · rw [exec_rxEdge] at h
    exact Host.Outcome.next.inj h ▸ onlyReceiver_edgeNext d s
  · rw [exec_xlPoll_eq] at h
    exact Host.Outcome.next.inj h ▸ onlyTranslator_pollNext s
  · rw [exec_txTick_eq] at h
    exact Host.Outcome.next.inj h ▸ onlyEngine_tickNext r s

/-- Settles O5. -/
theorem stepRunsTheNextEvent : Obligations.StepRunsTheNextEvent :=
  ⟨fun _ e _ h => (step_of_cons h).trans (exec_eventInstr e _).symm, fun _ h => step_of_nil h, fun c _ _ h => decode_line c h⟩

end Sys2Proof.Machine
end

section
/-! PROOFS. The transmit engine (R150 to R168): the tick against the slot cases, what an active tick keeps, and the two
waveforms of a launched byte. -/

namespace Sys2Proof.Machine

/-! ### Slot arithmetic (R77, R164) -/

theorem nextCount_val (c : TickCount) : (nextCount c).val = if c.val = 39 then 0 else c.val + 1 := by
  unfold nextCount
  split_ifs <;> rfl

theorem nextCount_of_succ {c n : TickCount} (h : c.val + 1 = n.val) : nextCount c = n := by
  refine Fin.ext ?_
  rw [nextCount_val, if_neg (by omega), h]

@[simp] theorem isDataSlot_dataSlot (bit : Fin 8) (p : Fin 4) : isDataSlot (dataSlot bit p) = true := by
  revert bit p
  decide

@[simp] theorem bitpos_dataSlot (bit : Fin 8) (p : Fin 4) : bitpos (dataSlot bit p) = bit.val + 1 := by
  simp only [bitpos, dataSlot]
  omega

@[simp] theorem phase_dataSlot (bit : Fin 8) (p : Fin 4) : phase (dataSlot bit p) = p.val := by
  simp only [phase, dataSlot]
  omega

@[simp] theorem isDataSlot_startHoldSlot (slot : Fin 3) : isDataSlot (startHoldSlot slot) = false := by
  revert slot
  decide

@[simp] theorem bitpos_startHoldSlot (slot : Fin 3) : bitpos (startHoldSlot slot) = 0 := by
  revert slot
  decide

/-- The slot at which `tx_sr` shifts: phase 3 of a data bit-time (R157). -/
abbrev shiftsAt (c : TickCount) : Prop := isDataSlot c = true ∧ phase c = 3

/-- The slot at which a data bit goes out on the serial line: phase 0 of a data bit-time (R154). -/
abbrev copiesAt (c : TickCount) : Prop := isDataSlot c = true ∧ phase c = 0

/-- The slot at which the serial line goes to the stop level: phase 0 of the stop bit-time (R158). -/
abbrev stopsAt (c : TickCount) : Prop := bitpos c = 9 ∧ phase c = 0

/-! ### The rows of the engine -/

theorem exec_txStart {s : State} (h : s.rbIn ≠ s.rbOut) : exec .txStart s = .next (launched s) := by
  simp [exec, execTxStart, launchByte_eq_launched h]

theorem exec_txStartHold (slot : Fin 3) (s : State) :
    exec (.txStartHold slot) s = .next (advance (startHoldSlot slot) (applyWave (startHoldSlot slot) s)) := rfl

theorem exec_txDataP0 (bit : Fin 8) (s : State) :
    exec (.txDataP0 bit) s = .next (advance (dataSlot bit 0) { applyWave (dataSlot bit 0) s with serOut := txBit s }) := rfl

theorem exec_txDataP1 (bit : Fin 8) (s : State) :
    exec (.txDataP1 bit) s = .next (advance (dataSlot bit 1) (applyWave (dataSlot bit 1) s)) := rfl

theorem exec_txDataP2 (bit : Fin 8) (s : State) :
    exec (.txDataP2 bit) s = .next (advance (dataSlot bit 2) (applyWave (dataSlot bit 2) s)) := rfl

theorem exec_txDataP3 (bit : Fin 8) (s : State) :
    exec (.txDataP3 bit) s = .next (advance (dataSlot bit 3) { applyWave (dataSlot bit 3) s with txSr := s.txSr >>> 1 }) := rfl

/-- What a slot writes that touches the legacy lines and the counter alone. -/
theorem advance_applyWave {c c' next : TickCount} (s : State) (hc : c = c') (hnext : c'.val + 1 = next.val) :
    advance c (applyWave c s) = { s with
      tandyClk := (s.params.wave.get c').clk.level (s.txSr.getLsbD 0) s.tandyClk
      tandyData := (s.params.wave.get c').data.level (s.txSr.getLsbD 0) s.tandyData
      txCount := next } := by
  rw [← nextCount_of_succ hnext, hc]
  rfl

theorem startHoldSlot_eq (slot : Fin 3) : startHoldSlot slot = ⟨slot.val + 1, by omega⟩ := rfl

theorem dataSlot_eq (bit : Fin 8) (p : Fin 4) : dataSlot bit p = ⟨4 * bit.val + 4 + p.val, by omega⟩ := rfl

/-- Settles O46. -/
theorem lineOnlySlotsApplyTheTable : Obligations.LineOnlySlotsApplyTheTable := fun slot k s =>
  ⟨congrArg Host.Outcome.next (advance_applyWave s (startHoldSlot_eq slot) rfl),
    congrArg Host.Outcome.next (advance_applyWave s (dataSlot_eq k 1) rfl),
    congrArg Host.Outcome.next (advance_applyWave s (dataSlot_eq k 2) rfl),
    congrArg Host.Outcome.next (advance_applyWave s rfl rfl),
    congrArg Host.Outcome.next (advance_applyWave s rfl rfl), rfl⟩

/-- Settles O47. -/
theorem dataAndStopSlotsDriveTheSerialLine : Obligations.DataAndStopSlotsDriveTheSerialLine := by
  intro k s
  refine ⟨?_, ?_, rfl⟩
  · have hnext : nextCount (dataSlot k 0) = ⟨4 * k.val + 5, by omega⟩ := nextCount_of_succ rfl
    rw [exec_txDataP0, advance, hnext]
    rfl
  · have hnext : nextCount (dataSlot k 3) = ⟨4 * k.val + 8, by omega⟩ := nextCount_of_succ rfl
    rw [exec_txDataP3, advance, hnext]
    rfl

/-! ### The tick and its case -/

/-- In an active slot the pseudocode of R150 over `bitpos` and `phase` does what the slot's own rule says. -/
theorem exec_slotCase {launch : Bool} {n : TickCount} {i : Instr} {s : State} (h : SlotCase launch n i) (hn : s.txCount = n)
    (h0 : n ≠ 0) : exec i s = .next (activeTick s) := by
  rw [activeTick_eq, hn]
  cases h with
  | idle | start => exact absurd rfl h0
  | startHold slot => rw [exec_txStartHold]; simp [advance, applyWave, applySlot]
  | dataP0 bit => rw [exec_txDataP0]; simp [advance, applyWave, applySlot]; omega
  | dataP1 bit => rw [exec_txDataP1]; simp [advance, applyWave, applySlot]
  | dataP2 bit => rw [exec_txDataP2]; simp [advance, applyWave, applySlot]
  | dataP3 bit => rw [exec_txDataP3]; simp [advance, applyWave, applySlot]
  | stopP0 | stopP1 | stopP2 | stopP3 => rfl

/-- Settles O49: Idle by the start test, the active slots by their case. -/
theorem tickRunsTheDecodedCase : Obligations.TickRunsTheDecodedCase := by
  intro r s
  rw [exec_txTick_eq]
  have hcase := slotCase_decodeCount (decide (s.rbIn ≠ s.rbOut) && r) s.txCount
  obtain ⟨h0, hwait, heq⟩ | ⟨h0, hr, hne, heq⟩ | ⟨h0, heq⟩ := tickNext_cases r s <;> rw [heq]
  · have hidle : (decide (s.rbIn ≠ s.rbOut) && r) = false := by
      obtain h | h := hwait <;> simp [h]
    rw [hidle, h0]
    rfl
  · have hstart : (decide (s.rbIn ≠ s.rbOut) && r) = true := by simp [hne, hr]
    rw [hstart, h0]
    exact (exec_txStart hne).symm
  · exact (exec_slotCase hcase rfl h0).symm

/-- Settles O44. -/
theorem idleTickHolds : Obligations.IdleTickHolds :=
  ⟨fun _ => rfl, fun r s h0 h => by rw [exec_txTick_eq, tickNext_hold h0 h]⟩

/-- Settles O45. -/
theorem startTickLaunchesTheOldestByte : Obligations.StartTickLaunchesTheOldestByte := by
  refine fun s hne => ⟨_, _, exec_txStart hne, rfl, rfl, fun hwave => ?_, fun h0 => ?_⟩
  · rw [hwave]
    exact ⟨rfl, rfl⟩
  · rw [exec_txTick_eq, tickNext_launch h0 hne, exec_txStart hne]

theorem activeTick_txCount (s : State) : (activeTick s).txCount = nextCount s.txCount := rfl

theorem activeTick_rbOut (s : State) : (activeTick s).rbOut = s.rbOut := by rw [activeTick_eq]

/-- Settles O50. -/
theorem tickAdvancesTheCounter : Obligations.TickAdvancesTheCounter := by
  refine fun r s => ⟨_, exec_txTick_eq r s, onlyEngine_tickNext r s, fun h0 => ?_, fun h0 => ?_⟩
  · obtain ⟨_, hwait, heq⟩ | ⟨_, hr, hne, heq⟩ | ⟨h, _⟩ := tickNext_cases r s
    · rw [heq, h0]
      refine ⟨iff_of_false (by decide) fun ⟨hne, hr⟩ => ?_, .inl rfl⟩
      obtain h | h := hwait
      · exact hne h
      · simp [h] at hr
    · rw [heq]
      exact ⟨iff_of_true rfl ⟨hne, hr⟩, .inr rfl⟩
    · exact absurd h0 h
  · rw [exec_txTick_eq, tickNext_active _ h0, tickNext_active _ h0]
    exact ⟨nextCount_val s.txCount, activeTick_rbOut s, rfl⟩

/-! ### What an active tick does to the shift register and the lines -/

theorem activeTick_txSr (s : State) : (activeTick s).txSr = if shiftsAt s.txCount then s.txSr >>> 1 else s.txSr := by
  rw [activeTick_eq]

theorem activeTick_serOut (s : State) : (activeTick s).serOut =
    if stopsAt s.txCount then true else if copiesAt s.txCount then txBit s else s.serOut := by
  rw [activeTick_eq]

theorem activeTick_lines (s : State) : ((activeTick s).tandyClk, (activeTick s).tandyData) =
    ((s.params.wave.get s.txCount).clk.level (txBit s) s.tandyClk,
      (s.params.wave.get s.txCount).data.level (txBit s) s.tandyData) := by
  rw [activeTick_eq]

theorem txBit_activeTick (s : State) :
    txBit (activeTick s) = if shiftsAt s.txCount then (s.txSr >>> 1).getLsbD 0 else txBit s := by
  rw [txBit, activeTick_txSr]
  split_ifs <;> rfl

theorem shiftsDone_nextCount : ∀ c : TickCount, c ≠ 0 →
    shiftsDone (nextCount c) = shiftsDone c + if shiftsAt c then 1 else 0 := by decide

theorem shiftsDone_le : ∀ c : TickCount, shiftsDone c ≤ 8 := by decide

/-- A level that the next slot fixes is the one this slot writes, or this slot fixes it already. -/
theorem serLevel_nextCount : ∀ c : TickCount, c ≠ 0 → ∀ bit bit' l : Bool,
    serLevel (nextCount c) (if shiftsAt c then bit' else bit) = some l →
      (if stopsAt c then l = true else if copiesAt c then l = bit else serLevel c bit = some l) := by decide

/-- The default table takes the lines from each slot's levels to the next slot's (R162). -/
theorem defaultLines_nextCount : ∀ c : TickCount, c ≠ 0 → ∀ bit bit' : Bool,
    ((TandyWave.default.get c).clk.level bit (defaultLines c bit).1, (TandyWave.default.get c).data.level bit (defaultLines c bit).2)
      = defaultLines (nextCount c) (if shiftsAt c then bit' else bit) := by decide

theorem shift_activeTick {s : State} (h0 : s.txCount ≠ 0) (h : s.txSr.toNat < 2 ^ (8 - shiftsDone s.txCount)) :
    (activeTick s).txSr.toNat < 2 ^ (8 - shiftsDone (activeTick s).txCount) := by
  rw [activeTick_txSr, activeTick_txCount, shiftsDone_nextCount _ h0]
  have hle := shiftsDone_le (nextCount s.txCount)
  rw [shiftsDone_nextCount _ h0] at hle
  split_ifs at hle ⊢ with hshift
  · have hpow : 8 - shiftsDone s.txCount = (8 - (shiftsDone s.txCount + 1)) + 1 := by omega
    rw [hpow, Nat.pow_succ] at h
    rw [BitVec.toNat_ushiftRight, Nat.shiftRight_one]
    omega
  · exact h

theorem serial_activeTick {s : State} (h0 : s.txCount ≠ 0)
    (h : ∀ l, serLevel s.txCount (txBit s) = some l → s.serOut = l) :
    ∀ l, serLevel (activeTick s).txCount (txBit (activeTick s)) = some l → (activeTick s).serOut = l := by
  intro l hl
  rw [activeTick_txCount, txBit_activeTick] at hl
  have hlevel := serLevel_nextCount s.txCount h0 _ _ l hl
  rw [activeTick_serOut]
  split_ifs at hlevel ⊢
  · exact hlevel.symm
  · exact hlevel.symm
  · exact h l hlevel

theorem legacy_activeTick {s : State} (h0 : s.txCount ≠ 0) (hwave : s.params.wave = TandyWave.default)
    (h : (s.tandyClk, s.tandyData) = defaultLines s.txCount (txBit s)) :
    ((activeTick s).tandyClk, (activeTick s).tandyData) = defaultLines (activeTick s).txCount (txBit (activeTick s)) := by
  obtain ⟨hclk, hdata⟩ := Prod.ext_iff.mp h
  simp only at hclk hdata
  rw [activeTick_lines, activeTick_txCount, txBit_activeTick, hwave, hclk, hdata]
  exact defaultLines_nextCount s.txCount h0 _ _

/-! ### The waveforms of a launched byte (R165, R168) -/

/-- What stands on `ser_out` between ticks while a byte goes out (R165): a fixed level, or a bit of the byte. -/
def serSource (c : TickCount) : Bool ⊕ Nat :=
  if c.val = 0 then .inl true
  else if c.val ≤ 4 then .inl false
  else if c.val ≤ 36 then .inr ((c.val - 1) / 4 - 1)
  else .inl true

/-- The level of `ser_out` between ticks while the byte `v` goes out (R165). -/
def serWave (v : Byte) (c : TickCount) : Bool := (serSource c).elim id v.getLsbD

theorem serSource_nextCount : ∀ c : TickCount, c ≠ 0 → serSource (nextCount c) =
    if stopsAt c then .inl true else if copiesAt c then .inr (shiftsDone c) else serSource c := by decide

theorem serWave_nextCount (v : Byte) {c : TickCount} (h0 : c ≠ 0) :
    serWave v (nextCount c) = if stopsAt c then true else if copiesAt c then v.getLsbD (shiftsDone c) else serWave v c := by
  rw [serWave, serSource_nextCount c h0]
  split_ifs <;> rfl

/-- The byte `v` is going out: `tx_sr` holds what is left of it and the serial line stands at its level. -/
structure Emitting (v : Byte) (s : State) : Prop where
  shift : s.txSr = v >>> shiftsDone s.txCount
  serial : s.serOut = serWave v s.txCount

theorem Emitting.txBit_eq {v : Byte} {s : State} (h : Emitting v s) : txBit s = v.getLsbD (shiftsDone s.txCount) := by
  simp [txBit, h.shift]

theorem emitting_launched (s : State) : Emitting (rbRead s.rbMem s.rbOut) (launched s) := by
  have hcount : (launched s).txCount = 1 := rfl
  have hnone : shiftsDone 1 = 0 := by decide
  refine ⟨?_, rfl⟩
  rw [hcount, hnone, BitVec.ushiftRight_zero]
  rfl

theorem Emitting.activeTick {v : Byte} {s : State} (h : Emitting v s) (h0 : s.txCount ≠ 0) : Emitting v (activeTick s) := by
  constructor
  · rw [activeTick_txSr, activeTick_txCount, shiftsDone_nextCount _ h0, h.shift]
    split_ifs
    · rw [BitVec.shiftRight_add]
    · rfl
  · rw [activeTick_serOut, activeTick_txCount, serWave_nextCount v h0, h.txBit_eq, h.serial]

theorem consume_tick_active (r : Bool) {s : State} (h0 : s.txCount ≠ 0) :
    consume s (.tick r) = activeTick { s with events := s.events.tail } :=
  tickNext_active (s := { s with events := s.events.tail }) r h0

/-- What every active tick keeps holds along a run of ticks up to the end of the byte. -/
theorem foldl_consume_ticks {P : State → Prop}
    (hkeep : ∀ (u : State) (r : Bool), u.txCount ≠ 0 → P u → P (consume u (.tick r))) (rs : List Bool) {s : State}
    (h0 : s.txCount ≠ 0) (hlen : s.txCount.val + rs.length ≤ 40) (h : P s) :
    P ((rs.map Event.tick).foldl consume s) ∧
      ((rs.map Event.tick).foldl consume s).txCount.val = (s.txCount.val + rs.length) % 40 := by
  induction rs generalizing s with
  | nil => exact ⟨h, (Nat.mod_eq_of_lt s.txCount.isLt).symm⟩
  | cons r rs ih =>
    have hnext : (consume s (.tick r)).txCount.val = if s.txCount.val = 39 then 0 else s.txCount.val + 1 := by
      rw [consume_tick_active r h0]
      exact nextCount_val s.txCount
    have hP := hkeep s r h0 h
    rw [List.length_cons] at hlen ⊢
    rw [List.map_cons, List.foldl_cons]
    by_cases hlast : s.txCount.val = 39
    · obtain rfl : rs = [] := List.length_eq_zero_iff.mp (by omega)
      rw [if_pos hlast] at hnext
      exact ⟨hP, by simp [hnext, hlast]⟩
    · rw [if_neg hlast] at hnext
      have hne : (consume s (.tick r)).txCount ≠ 0 := fun hzero => by
        rw [hzero] at hnext
        simp at hnext
      obtain ⟨hPend, hcount⟩ := ih hne (by omega) hP
      exact ⟨hPend, by rw [hcount, hnext]; congr 1; omega⟩

theorem emitting_consume {v : Byte} (u : State) (r : Bool) (h0 : u.txCount ≠ 0) (h : Emitting v u) :
    Emitting v (consume u (.tick r)) := by
  rw [consume_tick_active r h0]
  exact Emitting.activeTick (s := { u with events := u.events.tail }) ⟨h.shift, h.serial⟩ h0

theorem launched_active (s : State) : (launched s).txCount ≠ 0 := by
  change (1 : TickCount) ≠ 0
  decide

/-- A run over the launching tick and the ticks up to the end of the byte ends where what the launch begins and every active
tick keeps holds. -/
theorem run_launch {P : State → Prop} (hkeep : ∀ (u : State) (r : Bool), u.txCount ≠ 0 → P u → P (consume u (.tick r)))
    {s : State} {rs : List Bool} {rest : List Event} (h0 : s.txCount = 0) (hne : s.rbIn ≠ s.rbOut)
    (hev : s.events = .tick true :: (rs.map .tick ++ rest)) (hlen : rs.length ≤ 39)
    (hlaunch : P (launched { s with events := rs.map .tick ++ rest })) :
    ∃ t, Sys2Proof.core.run (rs.length + 1) s = .next t ∧ t.events = rest ∧ t.txCount.val = (rs.length + 1) % 40 ∧ P t := by
  have hfirst : consume s (.tick true) = launched { s with events := rs.map .tick ++ rest } := by
    rw [consume, hev]
    exact tickNext_launch h0 hne
  obtain ⟨t, hrun, ht, hrest⟩ := run_consume (.tick true :: rs.map .tick) rest s hev
  rw [List.length_cons, List.length_map] at hrun
  rw [List.foldl_cons, hfirst] at ht
  obtain ⟨hP, hcount⟩ := foldl_consume_ticks hkeep rs (launched_active _)
    (by change 1 + rs.length ≤ 40; omega) hlaunch
  rw [← ht] at hP hcount
  exact ⟨t, hrun, hrest, hcount.trans (congrArg (· % 40) (Nat.add_comm 1 rs.length)), hP⟩

/-- Settles O51: the launch starts the serial wave and every active tick keeps it. -/
theorem serialWaveformOfAByte : Obligations.SerialWaveformOfAByte := by
  intro s rs rest h0 hne hev hlen
  obtain ⟨t, hrun, hrest, hcount, hemit⟩ := run_launch emitting_consume h0 hne hev hlen (emitting_launched _)
  refine ⟨t, hrun, hcount, hrest, hemit.serial.trans ?_⟩
  rw [serWave, serSource, hcount]
  by_cases hlast : rs.length = 39
  · simp [hlast]
  · rw [Nat.mod_eq_of_lt (by omega), if_neg (Nat.succ_ne_zero _), Nat.add_sub_cancel]
    split_ifs <;> rfl

/-- The levels of R162's last column after event `n + 1` of a launched byte, the bit of the bit-time given. -/
theorem defaultLines_after : ∀ (n : TickCount) (bit : Bool),
    (n.val < 4 → defaultLines (nextCount n) bit = (true, false)) ∧
    (4 ≤ n.val → n.val < 36 →
      (n.val % 4 = 0 → defaultLines (nextCount n) bit = (true, bit)) ∧
      (n.val % 4 = 1 → defaultLines (nextCount n) bit = (false, bit)) ∧
      (n.val % 4 = 2 → defaultLines (nextCount n) bit = (true, bit)) ∧
      (n.val % 4 = 3 → defaultLines (nextCount n) bit = (true, false))) ∧
    (n.val = 36 → defaultLines (nextCount n) bit = (true, false)) ∧
    (n.val = 37 → defaultLines (nextCount n) bit = (false, false)) ∧
    (n.val = 38 → defaultLines (nextCount n) bit = (false, true)) ∧
    (n.val = 39 → defaultLines (nextCount n) bit = (true, true)) := by decide

theorem shiftsDone_after : ∀ n : TickCount, 4 ≤ n.val → n.val < 36 → n.val % 4 ≠ 3 →
    shiftsDone (nextCount n) = n.val / 4 - 1 := by decide

/-- The byte `v` is going out under the default table, from idle lines. -/
structure EmittingDefault (v : Byte) (s : State) : Prop extends Emitting v s where
  wave : s.params.wave = TandyWave.default
  legacy : (s.tandyClk, s.tandyData) = defaultLines s.txCount (txBit s)

theorem emittingDefault_launched {s : State} (hwave : s.params.wave = TandyWave.default) (hclk : s.tandyClk = true) :
    EmittingDefault (rbRead s.rbMem s.rbOut) (launched s) := by
  refine ⟨emitting_launched s, hwave, ?_⟩
  simp only [launched, hwave, hclk]
  rfl

theorem emittingDefault_consume {v : Byte} (u : State) (r : Bool) (h0 : u.txCount ≠ 0) (h : EmittingDefault v u) :
    EmittingDefault v (consume u (.tick r)) := by
  refine ⟨emitting_consume u r h0 h.toEmitting, (congrArg Params.wave (consume_params u _)).trans h.wave, ?_⟩
  rw [consume_tick_active r h0]
  exact legacy_activeTick (s := { u with events := u.events.tail }) h0 h.wave h.legacy

/-- Settles O52: the launch starts the default wave and every active tick keeps it. -/
theorem legacyWaveformUnderTheDefaultTable : Obligations.LegacyWaveformUnderTheDefaultTable := by
  intro s rs rest h0 hne hwave hclk _ hev hlen
  obtain ⟨t, hrun, -, hcount, hemit⟩ :=
    run_launch emittingDefault_consume h0 hne hev hlen (emittingDefault_launched hwave hclk)
  obtain ⟨n, hlength⟩ : ∃ n : TickCount, n.val = rs.length := ⟨⟨rs.length, by omega⟩, rfl⟩
  have hn : t.txCount = nextCount n := by
    refine Fin.ext (hcount.trans ?_)
    rw [nextCount_val]
    split_ifs <;> omega
  have hlevels : ∀ {clk data : Bool}, defaultLines (nextCount n) (txBit t) = (clk, data) →
      t.tandyClk = clk ∧ t.tandyData = data := fun h => Prod.mk.inj ((hn ▸ hemit.legacy).trans h)
  have hbit (h4 : 4 ≤ rs.length) (h36 : rs.length < 36) (h3 : rs.length % 4 ≠ 3) :
      txBit t = (s.rbMem.readAt s.rbOut.toNat).getLsbD (rs.length / 4 - 1) := by
    rw [← hlength] at h4 h36 h3 ⊢
    rw [hemit.txBit_eq, hn, shiftsDone_after n h4 h36 h3]
    rfl
  have hafter := defaultLines_after n (txBit t)
  rw [hlength] at hafter
  obtain ⟨hstart, hdata, h36, h37, h38, h39⟩ := hafter
  refine ⟨t, hrun, fun h => hlevels (hstart h), fun hge hlt => ?_, fun h => hlevels (h36 h), fun h => hlevels (h37 h),
    fun h => hlevels (h38 h), fun h => hlevels (h39 h)⟩
  obtain ⟨hp0, hp1, hp2, hp3⟩ := hdata hge hlt
  refine ⟨fun h => ?_, fun h => ?_, fun h => ?_, fun h => hlevels (hp3 h)⟩
  · exact hbit hge hlt (by omega) ▸ hlevels (hp0 h)
  · exact hbit hge hlt (by omega) ▸ hlevels (hp1 h)
  · exact hbit hge hlt (by omega) ▸ hlevels (hp2 h)

end Sys2Proof.Machine
end

section
/-! PROOFS. The invariant of the block (R21, R23, R90, R162, R165, R219): it holds at reset and every step keeps it. -/

namespace Sys2Proof.Machine

/-! ### The invariant by parts -/

/-- The part of the invariant that speaks of the transmit engine. -/
structure EngineInv (s : State) : Prop where
  shift : s.txSr.toNat < 2 ^ (8 - shiftsDone s.txCount)
  serial : ∀ l, serLevel s.txCount (txBit s) = some l → s.serOut = l
  legacy : s.params.wave = TandyWave.default → (s.tandyClk, s.tandyData) = defaultLines s.txCount (txBit s)

theorem Inv.engine {s : State} (h : Inv s) : EngineInv s := ⟨h.shift, h.serial, h.legacy⟩

theorem EngineInv.of_sameEngine {s t : State} (he : SameEngine s t) (hp : t.params = s.params) (h : EngineInv s) :
    EngineInv t := by
  have hbit : txBit t = txBit s := congrArg (·.getLsbD 0) he.txSr
  constructor
  · rw [he.txSr, he.txCount]
    exact h.shift
  · rw [hbit, he.txCount, he.serOut]
    exact h.serial
  · rw [hbit, he.txCount, he.tandyClk, he.tandyData, hp]
    exact h.legacy

/-- The invariant of a state that has the parameters of one that meets it. -/
theorem Inv.of_parts {s t : State} (h : Inv s) (hparams : t.params = s.params) (hmemory : Memory.wf t.rbMem)
    (hreceiver : t.rxWin.getLsbD 0 = false) (htake : s.params.mbxSplitTake = false → t.takePending = s.takePending)
    (hengine : EngineInv t) : Inv t where
  memory := hmemory
  params := hparams ▸ h.params
  receiver := hreceiver
  take hatomic := by
    rw [hparams] at hatomic
    rw [htake hatomic]
    exact h.take hatomic
  shift := hengine.shift
  serial := hengine.serial
  legacy := hengine.legacy

/-! ### The edge -/

@[simp] theorem edgeNext_rbMem (d : Bool) (s : State) : (edgeNext d s).rbMem = s.rbMem := by
  unfold edgeNext
  split_ifs <;> simp

/-- No start bit rests at the low end after an edge (R90). -/
theorem edgeNext_receiver (d : Bool) (s : State) : (edgeNext d s).rxWin.getLsbD 0 = false := by
  cases h : s.rxWin.getLsbD 1
  · rw [edgeNext_shift d h]
    exact (winStart_rxInsert s.rxWin d).trans h
  · cases d
    · simp [edgeNext_reject h]
    · simp [edgeNext_accept h]

theorem inv_edgeNext (d : Bool) {s : State} (h : Inv s) : Inv (edgeNext d s) := by
  have honly := onlyReceiver_edgeNext d s
  exact h.of_parts honly.inputs.params ((edgeNext_rbMem d s).symm ▸ h.memory) (edgeNext_receiver d s)
    (fun _ => honly.inputs.takePending) (h.engine.of_sameEngine honly.engine honly.inputs.params)

/-! ### The poll -/

theorem translate_memory_wf (b : Byte) {s : State} (h : Memory.wf s.rbMem) : Memory.wf (translate b s).rbMem := by
  obtain ⟨t, hpass, heq⟩ := translate_eq b s
  rw [heq, historyUpdate_rbMem]
  exact hpass.memory_wf h

theorem pollNext_memory_wf {s : State} (h : Memory.wf s.rbMem) : Memory.wf (pollNext s).rbMem := by
  obtain ⟨ready, pending, -, heq | heq⟩ := pollNext_cases s <;> rw [heq]
  · exact h
  · exact translate_memory_wf s.mbxByte (s := { s with mbxReady := ready, takePending := pending }) h

theorem pollNext_takePending {s : State} (hatomic : s.params.mbxSplitTake = false) :
    (pollNext s).takePending = s.takePending := by
  obtain ⟨ready, pending, htake, heq | heq⟩ := pollNext_cases s <;> rw [heq]
  · exact htake hatomic
  · rw [translate_takePending]
    exact htake hatomic

theorem inv_pollNext {s : State} (h : Inv s) : Inv (pollNext s) := by
  have honly := onlyTranslator_pollNext s
  exact h.of_parts honly.params (pollNext_memory_wf h.memory) (honly.receiver.rxWin.symm ▸ h.receiver) pollNext_takePending
    (h.engine.of_sameEngine honly.engine honly.params)

/-! ### The tick -/

/-- A launch from Idle leaves a full byte in `tx_sr`, the start level on the serial line, and the start condition of R162. -/
theorem engineInv_launched {s : State} (h0 : s.txCount = 0) (h : EngineInv s) : EngineInv (launched s) := by
  have hcount : (launched s).txCount = 1 := rfl
  have hnone : shiftsDone 1 = 0 := by decide
  refine ⟨?_, fun l hl => Option.some.inj hl, fun hwave => ?_⟩
  · rw [hcount, hnone]
    exact (launched s).txSr.isLt
  · have hidle : (s.tandyClk, s.tandyData) = (true, true) := by
      rw [h.legacy hwave, h0]
      rfl
    exact (emittingDefault_launched (s := s) hwave (congrArg Prod.fst hidle)).legacy

theorem engineInv_activeTick {s : State} (h0 : s.txCount ≠ 0) (h : EngineInv s) : EngineInv (activeTick s) := by
  refine ⟨shift_activeTick h0 h.shift, serial_activeTick h0 h.serial, fun hwave => ?_⟩
  rw [(onlyEngine_activeTick s).inputs.params] at hwave
  exact legacy_activeTick h0 hwave (h.legacy hwave)

theorem engineInv_tickNext (r : Bool) {s : State} (h : EngineInv s) : EngineInv (tickNext r s) := by
  obtain ⟨_, _, heq⟩ | ⟨h0, _, _, heq⟩ | ⟨h0, heq⟩ := tickNext_cases r s <;> rw [heq]
  · exact h
  · exact engineInv_launched h0 h
  · exact engineInv_activeTick h0 h

@[simp] theorem tickNext_rbMem (r : Bool) (s : State) : (tickNext r s).rbMem = s.rbMem := by
  obtain ⟨_, _, heq⟩ | ⟨_, _, _, heq⟩ | ⟨_, heq⟩ := tickNext_cases r s <;> rw [heq]
  · rfl
  · rw [activeTick_eq]

theorem inv_tickNext (r : Bool) {s : State} (h : Inv s) : Inv (tickNext r s) := by
  have honly := onlyEngine_tickNext r s
  exact h.of_parts honly.inputs.params ((tickNext_rbMem r s).symm ▸ h.memory) (honly.receiver.rxWin.symm ▸ h.receiver)
    (fun _ => honly.inputs.takePending) (engineInv_tickNext r h.engine)

/-! ### The statements -/

theorem inv_eventNext (e : Event) {s : State} (h : Inv s) : Inv (eventNext e s) := by
  cases e with
  | edge d => exact inv_edgeNext d h
  | poll => exact inv_pollNext h
  | tick r => exact inv_tickNext r h

/-- Settles O56: the events' operations keep the invariant, and taking an event from the queue does not touch it. -/
theorem everyStepKeepsTheInvariant : Obligations.EveryStepKeepsTheInvariant := by
  intro s t h hstep
  obtain ⟨_, rfl⟩ | ⟨e, rest, _, rfl⟩ := eq_of_step hstep
  · exact h
  · have htaken : Inv { s with events := rest } :=
      ⟨h.memory, h.params, h.receiver, h.take, h.shift, h.serial, h.legacy⟩
    exact inv_eventNext e htaken

/-- Settles O48. -/
theorem defaultTableIsAdmissible : Obligations.DefaultTableIsAdmissible := by
  unfold Obligations.DefaultTableIsAdmissible
  decide

theorem keymapT_wf : keymapT.wf ModCodes.default = true := by decide

/-- Whatever table the platform supplies, the one in force from reset is admissible (log 3). -/
theorem resetTable_wf : resetTable.wf ModCodes.default = true := by
  unfold resetTable
  split_ifs with h
  · exact h
  · exact keymapT_wf

theorem resetParams_wf : Params.reset.wf = true :=
  (Params.wf_iff Params.reset).mpr ⟨by decide, defaultTableIsAdmissible, resetTable_wf⟩

/-- Settles O53. -/
theorem resetHasTheSpecifiedValues : Obligations.ResetHasTheSpecifiedValues :=
  ⟨rfl, rfl, rfl, rfl, rfl, rfl, rfl, rfl, rfl, rfl, rfl, rfl, rfl, rfl, rfl, rfl, rfl, rfl, rfl⟩

/-- Settles O54: nothing is pending, queued or started at reset, so each event takes its idle branch. -/
theorem resetIsAFixedPointUntilTheFirstLowEdge : Obligations.ResetIsAFixedPointUntilTheFirstLowEdge := by
  refine ⟨?_, fun r => ?_, ?_, ?_⟩
  · rw [exec_xlPoll_eq, pollNext_idle rfl rfl]
  · rw [exec_txTick_eq, tickNext_hold rfl (.inl rfl)]
  · rw [exec_rxEdge, edgeNext_shift true rfl]
    rfl
  · rw [exec_rxEdge, edgeNext_shift false rfl]
    rfl

/-- Settles O55. -/
theorem resetMeetsTheInvariant : Obligations.ResetMeetsTheInvariant where
  memory := Memory.reset_wf
  params := resetParams_wf
  receiver := rfl
  take _ := rfl
  shift := by decide
  serial _ hl := Option.some.inj hl
  legacy _ := rfl

end Sys2Proof.Machine
end

section
/-! PROOFS. The receiver (R90 to R97) and the mailbox (R100, R101): the cases on their own, the edge in both polarities, and
the eleven edges of a frame. -/

namespace Sys2Proof.Machine

/-! ### The cases and the mailbox rows -/

/-- A window by the masks of its fields (R62). -/
theorem ps2Word_eq_masks (stop parity start : Bool) (data : Byte) : ps2Word stop parity data start =
    (if stop then 0x400#11 else 0#11) ||| (if parity then 0x200#11 else 0#11) ||| (data.setWidth 11 <<< 1)
      ||| (if start then 0x001#11 else 0#11) := by
  cases stop <;> cases parity <;> cases start <;> rfl

theorem exec_rxShift (stop parity : Bool) (data : Byte) (s : State) :
    exec (.rxShift stop parity data) s = .next (keepWindow (ps2Word stop parity data false) s) := rfl

theorem exec_rxAccept (parity : Bool) (data : Byte) (s : State) :
    exec (.rxAccept parity data) s = .next (acceptWindow (ps2Word false parity data true) s) := rfl

theorem exec_rxReject (parity : Bool) (data : Byte) (s : State) :
    exec (.rxReject parity data) s = .next (rejectWindow (ps2Word true parity data true) s) := rfl

/-- Settles O9. -/
theorem rxShiftKeepsTheWindow : Obligations.RxShiftKeepsTheWindow := by
  intro stop parity data s
  have hword := ps2Word_eq_masks stop parity false data
  rw [if_neg Bool.false_ne_true, BitVec.or_zero] at hword
  rw [exec_rxShift, hword]
  rfl

/-- Settles O10. -/
theorem rxAcceptDeliversTheByte : Obligations.RxAcceptDeliversTheByte := fun parity data s =>
  ⟨_, exec_rxAccept parity data s, acceptWindow_rxWin _ s, by rw [acceptWindow_mbxByte, rxByte, winData_ps2Word],
    acceptWindow_mbxReady _ s, onlyReceiver_acceptWindow _ s, acceptWindow_trace _ s⟩

/-- Settles O11. -/
theorem rxRejectDiscardsTheFrame : Obligations.RxRejectDiscardsTheFrame := by
  refine fun parity data s => ⟨_, exec_rxReject parity data s, rfl, ⟨rfl, rfl⟩, onlyReceiver_rejectWindow _ s, ?_⟩
  have hword : ps2Word true parity data true
      = 0x401#11 ||| (if parity then 0x200#11 else 0#11) ||| (data.setWidth 11 <<< 1) := by
    rw [ps2Word_eq_masks, if_pos rfl, if_pos rfl, show 0x401#11 = 0x400#11 ||| 0x001#11 from rfl]
    ac_rfl
  rw [rejectWindow_trace, hword]

/-- Settles O16. -/
theorem mailboxPutOverwrites : Obligations.MailboxPutOverwrites := by
  intro v s
  change Host.Outcome.next (mbxPut v s) = _
  cases h : s.mbxReady <;> simp [mbxPut, note, h]

/-- Settles O17. -/
theorem mailboxTakeReturnsAndClears : Obligations.MailboxTakeReturnsAndClears := by
  intro s
  change Host.Outcome.next (note (.resultByte (mbxTake s).1) (mbxTake s).2) = _
  obtain ⟨hready, htake⟩ | ⟨hready, htake⟩ := mbxTake_cases s <;> simp [htake, hready, note]

/-! ### The edge (R90) and its wire-polarity form (R97) -/

theorem rxByte_rxInsert (w : Window) (d : Bool) : rxByte (rxInsert w d) = ~~~(w.extractLsb' 2 8) := by
  rw [rxByte, winData_rxInsert]

/-- Settles O12. -/
theorem edgeShiftsDeliversOrDiscards : Obligations.EdgeShiftsDeliversOrDiscards := by
  refine fun d s => ⟨_, exec_rxEdge d s, onlyReceiver_edgeNext d s, fun hstart => ?_, fun hstart hd => ?_, fun hstart hd => ?_⟩
  · rw [edgeNext_shift d hstart]
    exact ⟨rxInsert_eq s.rxWin d, ⟨rfl, rfl⟩, rfl⟩
  · rw [hd, edgeNext_accept hstart]
    exact ⟨acceptWindow_rxWin _ s, (acceptWindow_mbxByte _ s).trans (rxByte_rxInsert s.rxWin true), acceptWindow_mbxReady _ s,
      acceptWindow_trace _ s⟩
  · rw [hd, edgeNext_reject hstart]
    exact ⟨rfl, ⟨rfl, rfl⟩, by rw [rejectWindow_trace, rxInsert_eq]; rfl⟩

/-- The wire-polarity window after a sample is the complement of the stored one. -/
theorem wireInsert_eq (w : Window) (d : Bool) :
    (~~~w >>> 1) ||| (if d then 0x400#11 else 0x000#11) = ~~~(rxInsert w d) := by
  rw [rxInsert_eq]
  ext i hi
  cases d <;> interval_cases i <;> simp

/-- Settles O13: the complement turns each condition of the wire form into the stored one. -/
theorem wirePolarityFormIsTheSameMachine : Obligations.WirePolarityFormIsTheSameMachine := by
  refine fun d s => ⟨_, exec_rxEdge d s, ?_⟩
  rw [wireInsert_eq]
  have hlow : (~~~(rxInsert s.rxWin d)).getLsbD 0 = !s.rxWin.getLsbD 1 := by
    rw [← winStart_rxInsert s.rxWin d, winStart, BitVec.getLsbD_not]
    rfl
  have hhigh : (~~~(rxInsert s.rxWin d)).getLsbD 10 = d := by
    rw [BitVec.getLsbD_not, show (rxInsert s.rxWin d).getLsbD 10 = !d from winStop_rxInsert s.rxWin d]
    simp
  simp only [hlow, hhigh, Bool.not_eq_true', Bool.not_eq_false']
  refine ⟨fun hstart => ?_, fun hstart => ?_⟩
  · rw [edgeNext_shift d hstart]
    exact ⟨rfl, ⟨rfl, rfl⟩⟩
  · cases d
    · rw [edgeNext_reject hstart, rejectWindow_rxWin]
      exact ⟨rfl, nofun, fun _ => ⟨rfl, rfl⟩⟩
    · rw [edgeNext_accept hstart, acceptWindow_rxWin]
      refine ⟨rfl, fun _ => ⟨?_, acceptWindow_mbxReady _ s⟩, nofun⟩
      rw [acceptWindow_mbxByte, rxByte, winData]
      ext i hi
      interval_cases i <;> simp

/-! ### The eleven edges of a frame (R94, R95) -/

/-- The lowest `k` bits of a window are clear: no start bit reaches the low end in the next `k - 1` edges. -/
def ClearBelow (k : Nat) (w : Window) : Prop := ∀ j < k, w.getLsbD j = false

theorem clearBelow_rxInsert {k : Nat} {w : Window} (d : Bool) (hk : k ≤ 10) (h : ClearBelow (k + 1) w) :
    ClearBelow k (rxInsert w d) := fun j hj => by
  rw [getLsbD_rxInsert w d (by omega)]
  exact h (j + 1) (by omega)

theorem consume_edge_shift (d : Bool) {s : State} (h : s.rxWin.getLsbD 1 = false) :
    consume s (.edge d) = { s with rxWin := rxInsert s.rxWin d, events := s.events.tail } :=
  edgeNext_shift (s := { s with events := s.events.tail }) d h

/-- Samples only enter the window as long as its low end stays clear. -/
theorem foldl_consume_edges (ds : List Bool) {s : State} (hlen : ds.length ≤ 10) (h : ClearBelow (ds.length + 1) s.rxWin) :
    (ds.map Event.edge).foldl consume s
      = { s with rxWin := ds.foldl rxInsert s.rxWin, events := s.events.drop ds.length } := by
  induction ds generalizing s with
  | nil => rfl
  | cons d ds ih =>
    rw [List.length_cons] at hlen h
    have hstart : s.rxWin.getLsbD 1 = false := h 1 (by omega)
    rw [List.map_cons, List.foldl_cons, consume_edge_shift d hstart, ih (by omega) (clearBelow_rxInsert d (by omega) h)]
    simp

/-- The samples of a frame before its stop bit (R61). -/
def frameSamples (b : Byte) (parity : Bool) : List Bool :=
  false :: ((List.range 8).map b.getLsbD ++ [parity])

theorem frameEvents_eq (b : Byte) (parity stop : Bool) :
    frameEvents false b parity stop = (frameSamples b parity).map Event.edge ++ [.edge stop] := rfl

theorem length_frameEvents (start : Bool) (b : Byte) (parity stop : Bool) : (frameEvents start b parity stop).length = 11 := by
  simp [frameEvents]

/-- The window before the stop bit of a frame that began with an empty one. -/
def frameWindow (b : Byte) (parity : Bool) : Window := (frameSamples b parity).foldl rxInsert 0#11

/-- The start bit of the frame stands one place above the low end, and the data bits above it. -/
theorem frameWindow_fields (b : Byte) (parity : Bool) :
    (frameWindow b parity).getLsbD 1 = true ∧ rxByte (rxInsert (frameWindow b parity) true) = b := by
  have hsamples : frameSamples b parity = [false, b.getLsbD 0, b.getLsbD 1, b.getLsbD 2, b.getLsbD 3, b.getLsbD 4,
      b.getLsbD 5, b.getLsbD 6, b.getLsbD 7, parity] := rfl
  rw [frameWindow, hsamples]
  constructor
  · simp [rxInsert, bitAt_getLsbD]
  · rw [rxByte_rxInsert]
    ext i hi
    interval_cases i <;> simp [rxInsert, bitAt_getElem]

/-- From an empty window all edges of a frame but the last only shift. -/
theorem foldl_consume_frame (b : Byte) (parity stop : Bool) {s : State} (hempty : s.rxWin = 0#11) :
    (frameEvents false b parity stop).foldl consume s
      = edgeNext stop { s with rxWin := frameWindow b parity, events := s.events.drop 11 } := by
  have hclear : ClearBelow ((frameSamples b parity).length + 1) s.rxWin := fun j _ => by simp [hempty]
  have hshift := foldl_consume_edges (frameSamples b parity) (by simp [frameSamples]) hclear
  rw [frameEvents_eq, List.foldl_append, hshift, hempty]
  simp [consume, eventNext, frameWindow, frameSamples]

/-- A run over a frame from an empty window ends in its last edge, which finds the start bit one place above the low end. -/
theorem run_frame (b : Byte) (parity stop : Bool) {rest : List Event} {s : State} (hempty : s.rxWin = 0#11)
    (hev : s.events = frameEvents false b parity stop ++ rest) :
    Sys2Proof.core.run 11 s = .next (edgeNext stop { s with rxWin := frameWindow b parity, events := rest }) := by
  obtain ⟨t, hrun, ht, -⟩ := run_consume _ _ _ hev
  have hdrop : s.events.drop 11 = rest := by
    rw [hev, List.drop_left' (length_frameEvents ..)]
  rw [length_frameEvents] at hrun
  rw [foldl_consume_frame b parity stop hempty, hdrop] at ht
  rw [hrun, ht]

theorem run_add_of_run (M : Host.Core) {s t : M.State} {k : Nat} (l : Nat) (h : M.run k s = .next t) :
    M.run (k + l) s = M.run l t := by
  induction k generalizing s with
  | zero => rw [Nat.zero_add, Host.Outcome.next.inj h]
  | succ k ih =>
    cases hstep : M.step s with
    | next u =>
      rw [run_succ_of_step M k hstep] at h
      rw [Nat.add_right_comm, run_succ_of_step M (k + l) hstep]
      exact ih h
    | fault _ | refused _ => simp [Host.Core.run, hstep] at h

/-- Settles O14. -/
theorem wellFormedFrameIsDelivered : Obligations.WellFormedFrameIsDelivered := by
  intro b parity rest s hempty hev
  obtain ⟨hstart, hbyte⟩ := frameWindow_fields b parity
  let u : State := { s with rxWin := frameWindow b parity, events := rest }
  have haccept : edgeNext true u = acceptWindow (rxInsert (frameWindow b parity) true) u := edgeNext_accept hstart
  obtain ⟨⟨hh1, hh2⟩, ⟨hms, hmc, hma, hmk⟩, ⟨hcells⟩, ⟨hin, hout⟩, ⟨hcount, hsr, hclk, hdata, hser⟩, _⟩ :=
    onlyReceiver_edgeNext true u
  refine ⟨edgeNext true u, run_frame b parity true hempty hev, ?_, ?_, ?_, ?_, ⟨hh1, hh2⟩, ⟨hms, hmc, hma, hmk⟩, ⟨hcells⟩,
    ⟨hin, hout⟩, ⟨hcount, hsr, hclk, hdata, hser⟩⟩
  · rw [haccept, acceptWindow_rxWin]
  · rw [haccept, acceptWindow_mbxByte, hbyte]
  · rw [haccept, acceptWindow_mbxReady]
  · rw [haccept, acceptWindow_events]

/-- Settles O15: the wrong stop bit is discarded with its frame, and the window it leaves is empty for the next one. -/
theorem frameAfterAWrongStopIsDelivered : Obligations.FrameAfterAWrongStopIsDelivered := by
  intro b b' parity parity' rest s hempty hev
  obtain ⟨hstart, -⟩ := frameWindow_fields b parity
  let t : State := edgeNext false { s with rxWin := frameWindow b parity, events := frameEvents false b' parity' true ++ rest }
  have hreject : t = rejectWindow (rxInsert (frameWindow b parity) false)
      { s with rxWin := frameWindow b parity, events := frameEvents false b' parity' true ++ rest } := edgeNext_reject hstart
  have hrun : Sys2Proof.core.run 11 s = .next t := run_frame b parity false hempty hev
  have hwin : t.rxWin = 0#11 := by rw [hreject, rejectWindow_rxWin]
  refine ⟨⟨t, hrun, hwin, ?_⟩, ?_⟩
  · rw [hreject]
    exact ⟨rfl, rfl⟩
  · have hev' : t.events = frameEvents false b' parity' true ++ rest := by rw [hreject, rejectWindow_events]
    obtain ⟨u, hrun', hwin', hbyte, hready, hrest, -⟩ := wellFormedFrameIsDelivered b' parity' rest t hwin hev'
    exact ⟨u, (run_add_of_run Sys2Proof.core 11 hrun).trans hrun', hwin', hbyte, hready, hrest⟩

end Sys2Proof.Machine
end

section
/-! PROOFS. The translator (R110 to R136): its cases on their own, the classification, and the pass that a poll makes. -/

namespace Sys2Proof

/-! ### Admissible tables (R70) -/

/-- Every entry of the function-key range of an admissible table has the sentinel in its `alt` column (R70). -/
theorem KeyTable.alt_eq_sentinel {t : KeyTable} {m : ModCodes} (hwf : t.wf m = true) {d : Nat} (hd : d < nFkeys) {e : KeyEntry}
    (he : t.keymap[t.fkeyBase + d]? = some e) : e.alt = t.fkeySentinel := by
  have hall : ∀ f ∈ (t.keymap.drop t.fkeyBase).take nFkeys, f.alt = t.fkeySentinel := by
    simp only [KeyTable.wf, Bool.and_eq_true] at hwf
    obtain ⟨⟨⟨⟨⟨⟨⟨-, hfkeys⟩, -⟩, -⟩, -⟩, -⟩, -⟩, -⟩ := hwf
    simpa using hfkeys
  refine hall e (List.mem_of_getElem? (i := d) ?_)
  rw [List.getElem?_take_of_lt hd, List.getElem?_drop, he]

end Sys2Proof

namespace Sys2Proof.Machine

/-! ### The modifier cases -/

/-- Settles O20. -/
theorem otherReleasesClearTheirOwnBit : Obligations.OtherReleasesClearTheirOwnBit := fun _ _ s =>
  ⟨Modifier.exec_releaseInstr .rshift s, Modifier.exec_releaseInstr .rctrl s, Modifier.exec_releaseInstr .lalt s,
    Modifier.exec_releaseInstr .ralt s, Modifier.exec_releaseInstr .caps s, rfl⟩

/-- Settles O22. -/
theorem otherPressesSetTheirOwnBit : Obligations.OtherPressesSetTheirOwnBit := fun s =>
  ⟨Modifier.exec_pressInstr .rshift s, Modifier.exec_pressInstr .rctrl s, Modifier.exec_pressInstr .lalt s,
    Modifier.exec_pressInstr .ralt s⟩

/-- Settles O23. -/
theorem capsPressTogglesUnlessHandled : Obligations.CapsPressTogglesUnlessHandled := by
  refine fun s => ⟨capsPress s.modCaps, Modifier.exec_pressInstr .caps s, ?_⟩
  refine ⟨fun h => ?_, fun h => ?_, fun h => ?_, fun h => ?_⟩ <;> rw [h] <;> decide

/-- A press sets handled, so a second one changes nothing (R132). -/
theorem capsPress_idem : ∀ f : ModField, capsPress (capsPress f) = capsPress f := by decide

/-- Settles O24, by induction on the number of further presses. -/
theorem heldCapsLockTogglesOnce : Obligations.HeldCapsLockTogglesOnce := by
  intro n s
  let t : State := historyUpdate (keyByte s.params.mods.caps) (pressCaps s)
  refine ⟨t, ?_⟩
  induction n with
  | zero => exact ⟨t, rfl, rfl, rfl⟩
  | succ n ih =>
    obtain ⟨u, ht, hu, hcaps⟩ := ih
    refine ⟨historyUpdate (keyByte u.params.mods.caps) (pressCaps u), ht, ?_, ?_⟩
    · rw [Function.iterate_succ_apply', hu]
      exact Modifier.exec_pressInstr .caps u
    · rw [historyUpdate_modCaps, pressCaps_modCaps, hcaps]
      exact capsPress_idem s.modCaps

/-! ### Unknown presses and the classification (R111, R133) -/

theorem lookupKey_eq_mask (esc : Bool) (b : Byte) : lookupKey esc b = (if esc then 0x100#9 else 0#9) ||| b.setWidth 9 := by
  cases esc <;> rfl

theorem exec_xlPrsOther (esc : Bool) (b : Byte) (s : State) :
    exec (.xlPrsOther esc b) s = .next (historyUpdate b (note (.eUnknownKey (lookupKey esc b)) s)) := rfl

/-- Settles O25. -/
theorem unknownPressIsSilentlyIgnored : Obligations.UnknownPressIsSilentlyIgnored := by
  refine ⟨fun c w hrel hE hF habsent hkey => ?_, fun esc b s => ?_⟩
  · have hnone := (lookup_eq_none_iff c.params.table.keymap _).mpr habsent
    rw [← lookupKey_xkey] at hnone hkey
    rw [decode_xkey_unlistedPress c hE hF hrel hnone, decodeUnlisted_eq, (Modifier.ofKey_eq_none_iff _ _).mpr hkey]
    rfl
  · rw [exec_xlPrsOther, lookupKey_eq_mask]
    rfl

theorem xkeyRel_formXkey (s : State) (b : Byte) : xkeyRel (formXkey s b) = isRelease s.hist1 := xkeyRel_xkeyWord ..

theorem xkeyEsc_formXkey (s : State) (b : Byte) : xkeyEsc (formXkey s b) = isEscaped s.hist2 s.hist1 := xkeyEsc_xkeyWord ..

theorem xkeyByte_formXkey (s : State) (b : Byte) : xkeyByte (formXkey s b) = b := xkeyByte_xkeyWord ..

theorem isRelease_eq_true_iff (h1 : Byte) : isRelease h1 = true ↔ h1 = pfxRelease := by
  simp [isRelease]

theorem isEscaped_eq_true_iff (h2 h1 : Byte) :
    isEscaped h2 h1 = true ↔ h1 = pfxEscape ∨ (h1 = pfxRelease ∧ h2 = pfxEscape) := by
  simp [isEscaped]

/-- Settles O26. -/
theorem classificationReadsTheHistory : Obligations.ClassificationReadsTheHistory := by
  refine fun b s => ⟨?_, ?_, xkeyByte_formXkey s b, ?_⟩
  · rw [← isRelease_eq_true_iff, ← xkeyRel_formXkey s b]
    rfl
  · rw [← isEscaped_eq_true_iff, ← xkeyEsc_formXkey s b]
    rfl
  · rw [← lookupKey_xkey, xkeyEsc_formXkey, xkeyByte_formXkey]
    rfl

/-! ### The emissions (R124, R125) -/

theorem exec_xlPrsKey {esc : Bool} {b : Byte} {i : Nat} {e : KeyEntry} {s : State}
    (hfound : lookup s.params.table.keymap (lookupKey esc b) = some (i, e)) :
    exec (.xlPrsKey esc b) s = .next (historyUpdate b (emitEntry i e s)) := by
  simp [exec, execXlPrsKey, hfound]

theorem exec_xlPrsFkeyAlt {esc : Bool} {b : Byte} {i : Nat} {e : KeyEntry} {s : State}
    (hfound : lookup s.params.table.keymap (lookupKey esc b) = some (i, e)) (hrange : inFkeyRange s.params.table i = true) :
    exec (.xlPrsFkeyAlt esc b) s = .next (historyUpdate b (emitFkey i e s)) := by
  simp [exec, execXlPrsFkeyAlt, hfound, hrange]

theorem inFkeyRange_eq_true_iff (t : KeyTable) (i : Nat) :
    inFkeyRange t i = true ↔ t.fkeyBase ≤ i ∧ i < t.fkeyBase + 10 := by
  simp [inFkeyRange]

theorem emit_full {v : Byte} {s : State} (h : s.rbIn + 1#4 = s.rbOut) : emit v s = note (.eRbFull [v]) s := by
  rw [emit, rbPush_full h]

theorem emit_room {v : Byte} {s : State} (h : s.rbIn + 1#4 ≠ s.rbOut) :
    emit v s = { s with rbMem := rbWrite s.rbMem s.rbIn v, rbIn := s.rbIn + 1#4 } := by
  rw [emit, rbPush_room h]

theorem emit2_full {v1 v2 : Byte} {s : State} (h : 14#4 ≤ rbCount s) : emit2 v1 v2 s = note (.eRbFull [v1, v2]) s := by
  rw [emit2, rbPush2_full h]

theorem emit2_room {v1 v2 : Byte} {s : State} (h : ¬ 14#4 ≤ rbCount s) :
    emit2 v1 v2 s =
      { s with rbMem := rbWrite (rbWrite s.rbMem s.rbIn v1) (s.rbIn + 1#4) v2, rbIn := s.rbIn + 2#4 } := by
  rw [emit2, rbPush2_room h]

/-- What an emission and the history update leave unchanged. -/
structure EmissionFrame (b : Byte) (s t : State) : Prop where
  hist2 : t.hist2 = s.hist1
  hist1 : t.hist1 = b
  receiver : SameReceiver s t
  mailbox : SameMailbox s t
  modifiers : SameModifiers s t
  engine : SameEngine s t
  inputs : SameInputs s t
  rbOut : t.rbOut = s.rbOut

theorem emissionFrame (b : Byte) (m : Memory) (i : RingIndex) (tr : List Mark) (s : State) :
    EmissionFrame b s (historyUpdate b { s with rbMem := m, rbIn := i, trace := tr }) :=
  ⟨rfl, rfl, ⟨rfl⟩, ⟨rfl, rfl⟩, ⟨rfl, rfl, rfl, rfl⟩, ⟨rfl, rfl, rfl, rfl, rfl⟩, ⟨rfl, rfl, rfl⟩, rfl⟩

theorem emissionFrame_emit (b v : Byte) (s : State) : EmissionFrame b s (historyUpdate b (emit v s)) := by
  obtain ⟨_, heq⟩ | ⟨_, heq⟩ := emit_cases v s <;> rw [heq] <;> exact emissionFrame b _ _ _ s

theorem emissionFrame_emit2 (b v1 v2 : Byte) (s : State) : EmissionFrame b s (historyUpdate b (emit2 v1 v2 s)) := by
  obtain ⟨_, heq⟩ | ⟨_, heq⟩ := emit2_cases v1 v2 s <;> rw [heq] <;> exact emissionFrame b _ _ _ s

/-- Settles O29. -/
theorem foundKeyPushesTheSelectedColumn : Obligations.FoundKeyPushesTheSelectedColumn := by
  intro esc b i e s hfound
  obtain ⟨hh2, hh1, hrx, hmbx, hmod, heng, hinp, hout⟩ := emissionFrame_emit b (columnByte e (select s i)) s
  refine ⟨_, exec_xlPrsKey hfound, hh2, hh1, hrx, hmbx, hmod, heng, hinp, hout, ?_⟩
  intro v
  have hv : columnByte e (select s i) = v := by
    cases h : select s i <;> simp [v, h, columnByte]
  rw [emitEntry, hv]
  refine ⟨fun hroom => ?_, fun hfull => ?_⟩
  · rw [emit_room hroom]
    exact ⟨rfl, Memory.readAt_writeAt_same _ _ _, fun a ha => Memory.readAt_writeAt_other _ _ ha, rfl⟩
  · rw [emit_full hfull]
    exact ⟨rfl, ⟨fun _ => rfl⟩, rfl⟩

/-- Settles O30. -/
theorem altFunctionKeyPushesBothBytesOrNeither : Obligations.AltFunctionKeyPushesBothBytesOrNeither := by
  intro esc b i e s hfound hlow hhigh
  obtain ⟨hh2, hh1, hrx, hmbx, hmod, heng, hinp, hout⟩ := emissionFrame_emit2 b e.alt (fkeyDigit s.params.table i) s
  have hrange := (inFkeyRange_eq_true_iff _ _).mpr ⟨hlow, hhigh⟩
  have hcount := pairFull_iff s
  rw [length_queue] at hcount
  refine ⟨_, exec_xlPrsFkeyAlt hfound hrange, hh2, hh1, hrx, hmbx, hmod, heng, hinp, hout, ?_⟩
  intro digit
  have hdigit : fkeyDigit s.params.table i = digit := fkeyDigit_eq _ _
  rw [emitFkey, hdigit]
  refine ⟨fun hroom => ?_, fun hfull => ?_⟩
  · rw [emit2_room (mt hcount.mp (by omega))]
    obtain ⟨hfirst, hsecond, hother⟩ := readAt_pair s.rbMem s.rbIn e.alt digit
    exact ⟨rfl, hfirst, hsecond, hother, rfl⟩
  · rw [emit2_full (hcount.mpr hfull)]
    exact ⟨rfl, ⟨fun _ => rfl⟩, rfl⟩

/-! ### The pass against the decode map (R73) -/

theorem exec_decodeRelease (esc : Bool) (b : Byte) (s : State) :
    exec (decodeRelease s.params.mods esc b) s = .next (historyUpdate b (releasePath (lookupKey esc b) s)) := by
  rw [decodeRelease_eq, releasePath_eq]
  cases hq : Modifier.ofKey s.params.mods (lookupKey esc b) with
  | none => rfl
  | some q =>
    have hbyte : keyByte (q.code s.params.mods) = b := by rw [← Modifier.code_of_ofKey hq, keyByte_lookupKey]
    exact hbyte ▸ Modifier.exec_releaseInstr q s

theorem exec_decodeUnlisted (esc : Bool) (b : Byte) (s : State) :
    exec (decodeUnlisted s.params.mods esc b) s = .next (historyUpdate b (unlistedPath (lookupKey esc b) s)) := by
  rw [decodeUnlisted_eq, unlistedPath_eq]
  cases hq : Modifier.ofKey s.params.mods (lookupKey esc b) with
  | none => rfl
  | some q =>
    have hbyte : keyByte (q.code s.params.mods) = b := by rw [← Modifier.code_of_ofKey hq, keyByte_lookupKey]
    exact hbyte ▸ Modifier.exec_pressInstr q s

theorem exec_decodePress (r esc : Bool) (b : Byte) (s : State) :
    exec (decodePress (decodeContext s r) esc b) s = .next (historyUpdate b (pressPath (lookupKey esc b) s)) := by
  have halt := fun i => select_eq_alt s i
  obtain ⟨i, e, hfound, hrange, hcol, heq⟩ | ⟨i, e, hfound, hone, heq⟩ | ⟨habsent, heq⟩ := pressPath_cases (lookupKey esc b) s
  · have hdec : decodePress (decodeContext s r) esc b = .xlPrsFkeyAlt esc b := by
      simp [decodePress, decodeContext, hfound, hrange, (halt i).mp hcol]
    rw [hdec, heq, exec_xlPrsFkeyAlt hfound hrange]
  · have hdec : decodePress (decodeContext s r) esc b = .xlPrsKey esc b := by
      rw [halt i] at hone
      simpa [decodePress, decodeContext, hfound] using hone
    rw [hdec, heq, exec_xlPrsKey hfound]
  · rw [decodePress_unlisted (decodeContext s r) habsent, heq]
    exact exec_decodeUnlisted esc b s

/-- The pass over a byte is the case its word decodes to: R110 against R73. -/
theorem exec_decodeXkey_formXkey (r : Bool) (b : Byte) (s : State) :
    exec (decodeXkey (decodeContext s r) (formXkey s b)) s = .next (translate b s) := by
  rw [decodeXkey, xkeyByte_formXkey, xkeyRel_formXkey, xkeyEsc_formXkey, translate]
  split_ifs with hE hF hrel
  · rw [hE]; rfl
  · rw [hF]; rfl
  · exact exec_decodeRelease _ b s
  · exact exec_decodePress r _ b s

/-- Settles O32. -/
theorem pollRunsTheDecodedCase : Obligations.PollRunsTheDecodedCase := by
  intro r s hatomic hready
  rw [exec_xlPoll_eq, pollNext_take hatomic hready]
  exact (exec_decodeXkey_formXkey r s.mbxByte { s with mbxReady := false }).symm

/-! ### What a poll changes -/

/-- Settles O31. -/
theorem pollConsumesThePendingByte : Obligations.PollConsumesThePendingByte := by
  refine fun s hatomic => ⟨fun hready => ?_, fun hready => ⟨_, exec_xlPoll_eq s, ?_, ?_, ?_, ?_, onlyTranslator_pollNext s⟩⟩
  · rw [exec_xlPoll_eq, pollNext_idle hatomic hready]
  all_goals rw [pollNext_take hatomic hready]
  · exact translate_mbxReady _ _
  · exact translate_hist1 _ _
  · exact translate_hist2 _ _
  · exact translate_takePending _ _

/-- Settles O33: after 0xF0 a pass at most changes ModifierState. -/
theorem releasesNeverPush : Obligations.ReleasesNeverPush := by
  intro s hatomic hready hhist
  refine ⟨_, exec_xlPoll_eq s, ?_⟩
  obtain ⟨t, hpass, heq⟩ := translate_eq s.mbxByte { s with mbxReady := false }
  rw [pollNext_take hatomic hready, heq]
  cases hpass with
  | unchanged => exact ⟨⟨fun _ => rfl⟩, ⟨rfl, rfl⟩, rfl⟩
  | modifiers => exact ⟨⟨fun _ => rfl⟩, ⟨rfl, rfl⟩, rfl⟩
  | unknown hpress => exact absurd hhist hpress
  | byte _ _ _ _ hpress => exact absurd hhist hpress
  | byteLost _ hpress => exact absurd hhist hpress
  | pair _ _ _ _ _ hpress => exact absurd hhist hpress
  | pairLost _ _ hpress => exact absurd hhist hpress

theorem PassCase.sameModifiers_or {key : Key} {s t : State} (h : PassCase key s t) :
    SameModifiers s t ∨
      key ∈ s.params.mods.toList ∧ (s.hist1 ≠ pfxRelease → lookup s.params.table.keymap key = none) := by
  cases h with
  | modifiers _ _ _ _ hkey habsent => exact .inr ⟨hkey, habsent⟩
  | _ => exact .inl ⟨rfl, rfl, rfl, rfl⟩

/-- Settles O34. -/
theorem modifiersChangeOnlyOnModifierKeys : Obligations.ModifiersChangeOnlyOnModifierKeys := by
  intro s t hexec hchanged
  rw [exec_xlPoll_eq] at hexec
  obtain rfl := Host.Outcome.next.inj hexec
  obtain ⟨ready, pending, -, heq | heq⟩ := pollNext_cases s
  · exact absurd (heq ▸ ⟨rfl, rfl, rfl, rfl⟩) hchanged
  · obtain ⟨u, hpass, htr⟩ := translate_eq s.mbxByte { s with mbxReady := ready, takePending := pending }
    obtain ⟨hs, hc, ha, hk⟩ | hkey := hpass.sameModifiers_or
    · rw [heq, htr] at hchanged
      exact absurd ⟨hs, hc, ha, hk⟩ hchanged
    · exact hkey

/-! ### What a press enqueues (R136) -/

theorem translate_press {b : Byte} {s : State} (hE : b ≠ pfxEscape) (hF : b ≠ pfxRelease) (hpress : s.hist1 ≠ pfxRelease) :
    translate b s = historyUpdate b (pressPath (formKey s b) s) := by
  simp [translate, hE, hF, isRelease, hpress]

theorem pressPath_byte {key : Key} {s : State} {i : Nat} {e : KeyEntry}
    (hfound : lookup s.params.table.keymap key = some (i, e))
    (hone : ¬ (inFkeyRange s.params.table i = true ∧ select s i = .alt)) : pressPath key s = emitEntry i e s := by
  simpa [pressPath, hfound] using fun hrange hcol => absurd ⟨hrange, hcol⟩ hone

theorem pressPath_pair {key : Key} {s : State} {i : Nat} {e : KeyEntry}
    (hfound : lookup s.params.table.keymap key = some (i, e)) (hrange : inFkeyRange s.params.table i = true)
    (hcol : select s i = .alt) : pressPath key s = emitFkey i e s := by
  simp [pressPath, hfound, hrange, hcol]

theorem queue_historyUpdate (b : Byte) (s : State) : queue (historyUpdate b s) = queue s := rfl

theorem queue_emitEntry (i : Nat) (e : KeyEntry) {s : State} (hroom : s.rbIn + 1#4 ≠ s.rbOut) :
    queue (emitEntry i e s) = queue s ++ [columnByte e (select s i)] := by
  rw [emitEntry, emit_room hroom]
  exact queue_push hroom rfl rfl rfl

theorem queue_emitFkey (i : Nat) (e : KeyEntry) {s : State} (hroom : ¬ 14#4 ≤ rbCount s) :
    queue (emitFkey i e s) = queue s ++ [e.alt, fkeyDigit s.params.table i] := by
  rw [emitFkey, emit2_room hroom]
  exact queue_push2 hroom rfl rfl rfl

/-- Settles O35. -/
theorem plainPressEnqueuesTheNoneColumn : Obligations.PlainPressEnqueuesTheNoneColumn := by
  intro s i e hatomic hready hE hF hpress hfound hshift hctrl halt hcaps hlen
  refine ⟨_, exec_xlPoll_eq s, ?_⟩
  let u : State := { s with mbxReady := false }
  have hcol : select u i = .plain :=
    (select_of_none (s := u) hctrl halt hshift).1 fun hswap =>
      Bool.false_ne_true (hcaps.symm.trans hswap.2)
  have hroom : u.rbIn + 1#4 ≠ u.rbOut := mt (full_iff u).mp (by change ¬ 14 < (queue s).length; omega)
  have hpath : pressPath (formKey u s.mbxByte) u = emitEntry i e u := pressPath_byte hfound (by simp [hcol])
  rw [pollNext_take hatomic hready, translate_press (s := u) hE hF hpress, queue_historyUpdate, hpath, queue_emitEntry i e hroom,
    hcol]
  rfl

/-- Settles O36. -/
theorem altFunctionKeyEnqueuesSentinelAndDigit : Obligations.AltFunctionKeyEnqueuesSentinelAndDigit := by
  intro s d e hatomic hwf hready hpress hd hfound hE hF hctrl halt hlen
  refine ⟨_, exec_xlPoll_eq s, ?_⟩
  let u : State := { s with mbxReady := false }
  have hcol : select u (s.params.table.fkeyBase + d) = .alt := select_of_alt (s := u) _ hctrl halt
  have hrange : inFkeyRange u.params.table (s.params.table.fkeyBase + d) = true :=
    (inFkeyRange_eq_true_iff _ _).mpr ⟨Nat.le_add_right _ _, Nat.add_lt_add_left hd _⟩
  have hroom : ¬ 14#4 ≤ rbCount u := mt (pairFull_iff u).mp (by change ¬ 13 < (queue s).length; omega)
  have hpath : pressPath (formKey u s.mbxByte) u = emitFkey (s.params.table.fkeyBase + d) e u :=
    pressPath_pair hfound hrange hcol
  have hsentinel : e.alt = s.params.table.fkeySentinel :=
    KeyTable.alt_eq_sentinel hwf hd ((lookup_eq_some_iff _ _ _ _).mp hfound).1
  have hdigit : fkeyDigit u.params.table (s.params.table.fkeyBase + d) = BitVec.ofNat 8 (0x30 + d) := by
    rw [fkeyDigit_eq, Nat.add_sub_cancel_left]
  rw [pollNext_take hatomic hready, translate_press (s := u) hE hF hpress, queue_historyUpdate, hpath, queue_emitFkey _ e hroom,
    hsentinel, hdigit]
  rfl

/-! ### What a pass reads -/

/-- The state with other parameters and another trace. -/
def withAside (p : Params) (tr : List Mark) (s : State) : State := { s with params := p, trace := tr }

/-- At this state the function only adds markers to the trace, and it reads neither the trace nor any parameter but the table
and the modifier codes. -/
def PassBlind (f : State → State) (s : State) : Prop :=
  ∃ marks, (f s).trace = marks ++ s.trace ∧
    ∀ (p : Params) (tr : List Mark), p.table = s.params.table → p.mods = s.params.mods →
      f (withAside p tr s) = withAside p (marks ++ tr) (f s)

theorem PassBlind.params_eq {f : State → State} {s : State} (h : PassBlind f s) : (f s).params = s.params := by
  obtain ⟨_, _, hblind⟩ := h
  exact (congrArg State.params (hblind s.params s.trace rfl rfl) :)

theorem PassBlind.comp {f g : State → State} {s : State} (hf : PassBlind f s) (hg : PassBlind g (f s)) :
    PassBlind (fun s => g (f s)) s := by
  have hparams := hf.params_eq
  obtain ⟨mf, htf, hblindf⟩ := hf
  obtain ⟨mg, htg, hblindg⟩ := hg
  refine ⟨mg ++ mf, by rw [htg, htf, List.append_assoc], fun p tr htable hmods => ?_⟩
  change g (f (withAside p tr s)) = _
  rw [hblindf p tr htable hmods, List.append_assoc]
  exact hblindg p (mf ++ tr) (hparams ▸ htable) (hparams ▸ hmods)

theorem passBlind_historyUpdate (b : Byte) (s : State) : PassBlind (historyUpdate b) s := ⟨[], rfl, fun _ _ _ _ => rfl⟩

theorem passBlind_release (q : Modifier) (s : State) : PassBlind q.release s := by
  cases q <;> exact ⟨[], rfl, fun _ _ _ _ => rfl⟩

theorem passBlind_press (q : Modifier) (s : State) : PassBlind q.press s := by
  cases q <;> exact ⟨[], rfl, fun _ _ _ _ => rfl⟩

theorem passBlind_emit (v : Byte) (s : State) : PassBlind (emit v) s := by
  obtain ⟨hfull, heq⟩ | ⟨hroom, heq⟩ := emit_cases v s
  · exact ⟨[.eRbFull [v]], by rw [heq]; rfl, fun _ _ _ _ => by rw [heq]; exact emit_full hfull⟩
  · exact ⟨[], by rw [heq]; rfl, fun _ _ _ _ => by rw [heq]; exact emit_room hroom⟩

theorem passBlind_emit2 (v1 v2 : Byte) (s : State) : PassBlind (emit2 v1 v2) s := by
  obtain ⟨hfull, heq⟩ | ⟨hroom, heq⟩ := emit2_cases v1 v2 s
  · exact ⟨[.eRbFull [v1, v2]], by rw [heq]; rfl, fun _ _ _ _ => by rw [heq]; exact emit2_full hfull⟩
  · exact ⟨[], by rw [heq]; rfl, fun _ _ _ _ => by rw [heq]; exact emit2_room hroom⟩

theorem passBlind_emitEntry (i : Nat) (e : KeyEntry) (s : State) : PassBlind (emitEntry i e) s :=
  passBlind_emit (columnByte e (select s i)) s

theorem passBlind_emitFkey (i : Nat) (e : KeyEntry) (s : State) : PassBlind (emitFkey i e) s := by
  obtain ⟨marks, htrace, hblind⟩ := passBlind_emit2 e.alt (fkeyDigit s.params.table i) s
  refine ⟨marks, htrace, fun p tr htable hmods => ?_⟩
  change emit2 e.alt (fkeyDigit p.table i) (withAside p tr s) = _
  rw [htable]
  exact hblind p tr htable hmods

/-- A function that one of `s`'s readings selects is blind where the selected function is. -/
theorem PassBlind.of_eq {f g : State → State} {s : State} (hg : PassBlind g s) (heq : f s = g s)
    (hsame : ∀ (p : Params) (tr : List Mark), p.table = s.params.table → p.mods = s.params.mods →
      f (withAside p tr s) = g (withAside p tr s)) : PassBlind f s := by
  obtain ⟨marks, htrace, hblind⟩ := hg
  exact ⟨marks, heq ▸ htrace, fun p tr htable hmods => by rw [hsame p tr htable hmods, hblind p tr htable hmods, heq]⟩

theorem passBlind_releasePath (key : Key) (s : State) : PassBlind (releasePath key) s := by
  cases hq : Modifier.ofKey s.params.mods key with
  | none =>
    refine PassBlind.of_eq (g := id) ⟨[], rfl, fun _ _ _ _ => rfl⟩ ?_ fun p tr _ hmods => ?_
    · rw [releasePath_eq, hq]; rfl
    · rw [releasePath_eq, show (withAside p tr s).params.mods = s.params.mods from hmods, hq]; rfl
  | some q =>
    refine (passBlind_release q s).of_eq ?_ fun p tr _ hmods => ?_
    · rw [releasePath_eq, hq]; rfl
    · rw [releasePath_eq, show (withAside p tr s).params.mods = s.params.mods from hmods, hq]; rfl

theorem passBlind_unlistedPath (key : Key) (s : State) : PassBlind (unlistedPath key) s := by
  cases hq : Modifier.ofKey s.params.mods key with
  | none =>
    refine PassBlind.of_eq (g := note (.eUnknownKey key)) ⟨[.eUnknownKey key], rfl, fun _ _ _ _ => rfl⟩ ?_ fun p tr _ hmods => ?_
    · rw [unlistedPath_eq, hq]; rfl
    · rw [unlistedPath_eq, show (withAside p tr s).params.mods = s.params.mods from hmods, hq]; rfl
  | some q =>
    refine (passBlind_press q s).of_eq ?_ fun p tr _ hmods => ?_
    · rw [unlistedPath_eq, hq]; rfl
    · rw [unlistedPath_eq, show (withAside p tr s).params.mods = s.params.mods from hmods, hq]; rfl

theorem pressPath_unlisted {key : Key} {s : State} (habsent : lookup s.params.table.keymap key = none) :
    pressPath key s = unlistedPath key s := by
  simp [pressPath, habsent]

theorem passBlind_pressPath (key : Key) (s : State) : PassBlind (pressPath key) s := by
  obtain ⟨i, e, hfound, hrange, hcol, heq⟩ | ⟨i, e, hfound, hone, heq⟩ | ⟨habsent, heq⟩ := pressPath_cases key s
  · refine (passBlind_emitFkey i e s).of_eq heq fun p tr htable _ => ?_
    rw [← htable] at hfound hrange
    exact pressPath_pair (s := withAside p tr s) hfound hrange hcol
  · refine (passBlind_emitEntry i e s).of_eq heq fun p tr htable _ => ?_
    rw [← htable] at hfound hone
    exact pressPath_byte (s := withAside p tr s) hfound hone
  · refine (passBlind_unlistedPath key s).of_eq heq fun p tr htable _ => ?_
    rw [← htable] at habsent
    exact pressPath_unlisted (s := withAside p tr s) habsent

theorem passBlind_translate (b : Byte) (s : State) : PassBlind (translate b) s := by
  by_cases hpfx : b = pfxEscape ∨ b = pfxRelease
  · have heq : ∀ u, translate b u = historyUpdate b u := fun u => by
      obtain h | h := hpfx <;> simp [translate, h]
    exact (passBlind_historyUpdate b s).of_eq (heq s) fun _ _ _ _ => heq _
  · obtain ⟨hE, hF⟩ := not_or.mp hpfx
    by_cases hrel : s.hist1 = pfxRelease
    · have heq : ∀ u : State, u.hist1 = pfxRelease → translate b u = historyUpdate b (releasePath (formKey u b) u) :=
        fun u hu => by simp [translate, hE, hF, isRelease, hu]
      exact ((passBlind_releasePath (formKey s b) s).comp (passBlind_historyUpdate b _)).of_eq (heq s hrel)
        fun _ _ _ _ => heq _ hrel
    · exact ((passBlind_pressPath (formKey s b) s).comp (passBlind_historyUpdate b _)).of_eq (translate_press hE hF hrel)
        fun _ _ _ _ => translate_press hE hF hrel

/-! ### The split take (R219) -/

/-- Settles O37: T2 after T1 makes the pass of the atomic take. -/
theorem splitTakeInOnePieceIsTheAtomicTake : Obligations.SplitTakeInOnePieceIsTheAtomicTake := by
  intro s hsplit hpending hready
  let t : State := { s with mbxReady := false, takePending := true }
  let taken : State := { s with mbxReady := false }
  let p : Params := { s.params with mbxSplitTake := false }
  have hfirst : pollNext s = t := pollNext_split_first hsplit hpending hready
  have hsecond : pollNext t = translate s.mbxByte taken :=
    (pollNext_split_second (s := t) hsplit rfl).trans
      (congrArg (fun b => translate s.mbxByte { s with mbxReady := false, takePending := b }) hpending.symm)
  have hatomic : pollNext { s with params := p } = translate s.mbxByte (withAside p s.trace taken) :=
    pollNext_take (s := { s with params := p }) rfl hready
  obtain ⟨marks, _, hblind⟩ := passBlind_translate s.mbxByte taken
  have hsame : translate s.mbxByte taken = { translate s.mbxByte (withAside p s.trace taken) with params := s.params } := by
    rw [hblind p s.trace rfl rfl]
    exact hblind s.params s.trace rfl rfl
  refine ⟨t, pollNext t, _, hfirst ▸ exec_xlPoll_eq s, rfl, exec_xlPoll_eq t, exec_xlPoll_eq _, ?_⟩
  rw [hsecond, hatomic, hsame]

/-- Settles O38: T2 reads the byte of the frame accepted after T1, whose flag the next T1 finds set. -/
theorem splitTakeCanDeliverAByteTwice : Obligations.SplitTakeCanDeliverAByteTwice := by
  intro parity data s hsplit hpending hready
  let t : State := { s with mbxReady := false, takePending := true }
  let u := acceptWindow (ps2Word false parity data true) t
  let v := translate u.mbxByte { u with takePending := false }
  let w : State := { v with mbxReady := false, takePending := true }
  let x := translate w.mbxByte { w with takePending := false }
  have honly := onlyTranslator_translate u.mbxByte { u with takePending := false }
  have husplit : u.params.mbxSplitTake = true := (congrArg _ (acceptWindow_params _ t)).trans hsplit
  have hvsplit : v.params.mbxSplitTake = true := (congrArg _ honly.params).trans husplit
  have huready : u.mbxReady = true := acceptWindow_mbxReady (ps2Word false parity data true) t
  have hvready : v.mbxReady = true := (translate_mbxReady _ _).trans huready
  have hubyte : u.mbxByte = ~~~data := by rw [acceptWindow_mbxByte, rxByte, winData_ps2Word]
  have hwbyte : w.mbxByte = ~~~data := honly.mbxByte.trans hubyte
  have ht : pollNext s = t := pollNext_split_first hsplit hpending hready
  have hv : pollNext u = v := pollNext_split_second husplit (acceptWindow_takePending _ t)
  have hw : pollNext v = w := pollNext_split_first hvsplit (translate_takePending _ _) hvready
  have hx : pollNext w = x := pollNext_split_second (s := w) hvsplit rfl
  refine ⟨t, u, v, w, x, ht ▸ exec_xlPoll_eq s, exec_rxAccept parity data t, acceptWindow_trace _ t, hv ▸ exec_xlPoll_eq u,
    hubyte, hvready, hw ▸ exec_xlPoll_eq v, hx ▸ exec_xlPoll_eq w, hwbyte, ?_, translate_mbxReady _ _⟩
  exact (translate_hist2 _ _).trans hubyte

end Sys2Proof.Machine
end

section
/-! PROOFS. The whole machine: a step and the case its agent's word decodes to (R60, R64, R73, R78), the order of an edge and a
tick (R56), the queue along a step (R144), and the trace of markers (R7, R181 to R185). -/

namespace Sys2Proof.Machine

/-! ### A step and the decoded case -/

theorem exec_decodePs2win (w : Window) (s : State) : exec (decodePs2win w) s =
    .next (if winStart w then if winStop w then rejectWindow w s else acceptWindow w s else keepWindow w s) := by
  have hw := ps2Word_fields w
  rw [decodePs2win]
  split_ifs with hstart hstop
  · rw [hstart, hstop] at hw
    rw [exec_rxReject, hw]
  · rw [hstart, Bool.eq_false_of_not_eq_true hstop] at hw
    rw [exec_rxAccept, hw]
  · rw [Bool.eq_false_of_not_eq_true hstart] at hw
    rw [exec_rxShift, hw]

/-- An edge is the case of the window after the shift: R90 against R64. -/
theorem exec_decodePs2win_rxInsert (d : Bool) (s : State) :
    exec (decodePs2win (rxInsert s.rxWin d)) s = .next (edgeNext d s) := by
  rw [exec_decodePs2win, winStart_rxInsert, winStop_rxInsert, edgeNext]
  cases d <;> rfl

/-- Settles O6. -/
theorem stepRunsTheDecodedCase : Obligations.StepRunsTheDecodedCase := by
  refine ⟨fun s d rest i hev hdec => ?_, fun s rest i hev hatomic hready hdec => ?_, fun s rest hev hatomic hready => ?_,
    fun s r rest i hev hdec => ?_⟩ <;> rw [step_of_cons hev]
  · rw [← rxInsert_eq] at hdec
    obtain rfl := Except.ok.inj hdec
    exact (exec_decodePs2win_rxInsert d { s with events := rest }).symm
  · obtain rfl := Except.ok.inj hdec
    have hpoll : pollNext { s with events := rest } = translate s.mbxByte { s with events := rest, mbxReady := false } :=
      pollNext_take (s := { s with events := rest }) hatomic hready
    rw [eventNext, hpoll]
    exact (exec_decodeXkey_formXkey false s.mbxByte { s with events := rest, mbxReady := false }).symm
  · exact congrArg _ (pollNext_idle (s := { s with events := rest }) hatomic hready)
  · obtain rfl := Except.ok.inj ((decode_slotWord (decodeContext s r) s.txCount).symm.trans hdec)
    exact (exec_txTick_eq r _).symm.trans (tickRunsTheDecodedCase r { s with events := rest })

/-- Settles O8: the three rows that can be refused have their operand where they are selected. -/
theorem everySelectedOperationAnswersANextState : Obligations.EverySelectedOperationAnswersANextState := by
  intro s r i hwf
  cases i with
  | xlPrsKey esc b =>
    obtain ⟨_, hsome, _⟩ := (wellFormed_xlPrsKey_iff _ esc b).mp hwf
    obtain ⟨⟨i, e⟩, hfound⟩ := Option.isSome_iff_exists.mp hsome
    exact ⟨_, exec_xlPrsKey hfound⟩
  | xlPrsFkeyAlt esc b =>
    obtain ⟨_, htwo⟩ := (wellFormed_xlPrsFkeyAlt_iff _ esc b).mp hwf
    obtain ⟨i, e, hfound, hrange⟩ := exists_entry_of_twoByteCase htwo
    exact ⟨_, exec_xlPrsFkeyAlt hfound hrange⟩
  | txStart =>
    have hne : s.rbIn ≠ s.rbOut ∧ r = true := by simpa [Instr.wellFormed, decodeContext, canLaunch] using hwf
    exact ⟨_, exec_txStart hne.1⟩
  | rxEdge d => exact ⟨_, exec_rxEdge d s⟩
  | xlPoll => exact ⟨_, exec_xlPoll_eq s⟩
  | txTick r => exact ⟨_, exec_txTick_eq r s⟩
  | _ => exact ⟨_, rfl⟩

/-! ### An edge and a tick (R56) -/

/-- The state without its markers. -/
def forget (s : State) : State := { s with trace := [] }

/-- The state with the receiver's registers of another. -/
def withReceiver (e s : State) : State := { s with rxWin := e.rxWin, mbxByte := e.mbxByte, mbxReady := e.mbxReady }

/-- The state with the transmit engine's registers of another. -/
def withEngine (e s : State) : State :=
  { s with
    rbOut := e.rbOut
    txCount := e.txCount
    txSr := e.txSr
    tandyClk := e.tandyClk
    tandyData := e.tandyData
    serOut := e.serOut }

theorem acceptWindow_eq (w : Window) (s : State) : acceptWindow w s = { s with
    rxWin := 0#11, mbxByte := rxByte w, mbxReady := true,
    trace := if s.mbxReady then .eMbxOverwrite s.mbxByte :: s.trace else s.trace } := by
  cases h : s.mbxReady <;> simp [acceptWindow, mbxPut, note, h]

/-- But for its marker, an edge reads the receiver's registers alone and writes no others. -/
theorem forget_edgeNext (d : Bool) {s u : State} (hwin : SameReceiver s u) (hmbx : SameMailbox s u) :
    forget (edgeNext d u) = withReceiver (edgeNext d s) (forget u) := by
  obtain ⟨hwin⟩ := hwin
  obtain ⟨hbyte, hready⟩ := hmbx
  cases hstart : s.rxWin.getLsbD 1
  · rw [edgeNext_shift d hstart, edgeNext_shift d (hwin ▸ hstart)]
    simp [forget, withReceiver, keepWindow, hwin, hbyte, hready]
  · cases d
    · rw [edgeNext_reject hstart, edgeNext_reject (hwin ▸ hstart)]
      simp [forget, withReceiver, rejectWindow, note, hbyte, hready]
    · rw [edgeNext_accept hstart, edgeNext_accept (hwin ▸ hstart)]
      simp [forget, withReceiver, acceptWindow_eq, hwin]

/-- But for its marker, a tick reads the engine's registers, the ring and the parameters alone and writes the engine's. -/
theorem forget_tickNext (r : Bool) {s u : State} (hengine : SameEngine s u) (hindices : SameIndices s u)
    (hmemory : SameMemory s u) (hinputs : SameInputs s u) :
    forget (tickNext r u) = withEngine (tickNext r s) (forget u) := by
  obtain ⟨hcount, hsr, hclk, hdata, hser⟩ := hengine
  obtain ⟨hin, hout⟩ := hindices
  obtain ⟨hparams, -, -⟩ := hinputs
  have hcell : ∀ i, rbRead u.rbMem i = rbRead s.rbMem i := fun i => hmemory.cells i.toNat
  obtain ⟨h0, hwait, heq⟩ | ⟨h0, hr, hne, heq⟩ | ⟨h0, heq⟩ := tickNext_cases r s <;> rw [heq] <;> rw [← hcount] at h0
  · rw [← hin, ← hout] at hwait
    rw [tickNext_hold h0 hwait]
    simp [forget, withEngine, *]
  · subst hr
    rw [← hin, ← hout] at hne
    rw [tickNext_launch h0 hne]
    simp [forget, withEngine, launched, *]
  · rw [tickNext_active r h0, activeTick_eq, activeTick_eq]
    simp [forget, withEngine, txBit, *]

/-- Settles O58: each of the two writes what the other does not read. -/
theorem edgeAndTickCommute : Obligations.EdgeAndTickCommute := by
  intro d r s
  refine ⟨_, _, _, _, exec_rxEdge d s, exec_txTick_eq r _, exec_txTick_eq r s, exec_rxEdge d _, ?_⟩
  obtain ⟨_, _, hmemory, hindices, hengine, hinputs⟩ := onlyReceiver_edgeNext d s
  obtain ⟨hwin, hmbx, _, _, _, _, _⟩ := onlyEngine_tickNext r s
  calc forget (tickNext r (edgeNext d s))
      = withEngine (tickNext r s) (forget (edgeNext d s)) := forget_tickNext r hengine hindices hmemory hinputs
    _ = withEngine (tickNext r s) (withReceiver (edgeNext d s) (forget s)) := by
        rw [forget_edgeNext d ⟨rfl⟩ ⟨rfl, rfl⟩]
    _ = withReceiver (edgeNext d s) (withEngine (tickNext r s) (forget s)) := rfl
    _ = withReceiver (edgeNext d s) (forget (tickNext r s)) := by
        rw [forget_tickNext r ⟨rfl, rfl, rfl, rfl, rfl⟩ ⟨rfl, rfl⟩ ⟨fun _ => rfl⟩ ⟨rfl, rfl, rfl⟩]
    _ = forget (edgeNext d (tickNext r s)) := (forget_edgeNext d hwin hmbx).symm

/-! ### The queue along a step (R144) -/

theorem queue_edgeNext (d : Bool) (s : State) : queue (edgeNext d s) = queue s := by
  have honly := onlyReceiver_edgeNext d s
  exact queue_congr (fun i => honly.memory.cells i.toNat) honly.indices.rbIn honly.indices.rbOut

theorem queue_tickNext (r : Bool) (s : State) : queue (tickNext r s) = queue s ∨
    ∃ v, queue s = v :: queue (tickNext r s) ∧ (tickNext r s).trace = .launch v :: s.trace ∧ (tickNext r s).txSr = v := by
  obtain ⟨_, _, heq⟩ | ⟨_, _, hne, heq⟩ | ⟨_, heq⟩ := tickNext_cases r s <;> rw [heq]
  · exact .inl rfl
  · exact .inr ⟨_, queue_pop hne rfl rfl rfl, rfl, rfl⟩
  · rw [activeTick_eq]
    exact .inl rfl

/-- A pass appends nothing, one selected byte, or a whole pair. -/
theorem PassCase.queue_eq {key : Key} {s t : State} (h : PassCase key s t) : queue t = queue s ∨
    ∃ i e, lookup s.params.table.keymap key = some (i, e) ∧
      ((queue t = queue s ++ [columnByte e (select s i)] ∧ ¬ (inFkeyRange s.params.table i = true ∧ select s i = .alt)) ∨
        (inFkeyRange s.params.table i = true ∧ select s i = .alt ∧
          queue t = queue s ++ [e.alt, BitVec.ofNat 8 (0x30 + (i - s.params.table.fkeyBase))])) := by
  cases h with
  | byte i e hfound hone _ hroom => exact .inr ⟨i, e, hfound, .inl ⟨queue_push hroom rfl rfl rfl, hone⟩⟩
  | pair i e hfound hrange halt _ hroom =>
    rw [fkeyDigit_eq]
    exact .inr ⟨i, e, hfound, .inr ⟨hrange, halt, queue_push2 hroom rfl rfl rfl⟩⟩
  | _ => exact .inl rfl

/-- A poll moves the take, and where it makes a pass it is one of the pass's cases and then the history update. -/
theorem pollNext_passCase (s : State) : ∃ ready pending, let u : State := { s with mbxReady := ready, takePending := pending }
    pollNext s = u ∨ ∃ t, PassCase (formKey s s.mbxByte) u t ∧ pollNext s = historyUpdate s.mbxByte t := by
  obtain ⟨ready, pending, -, heq | heq⟩ := pollNext_cases s
  · exact ⟨ready, pending, .inl heq⟩
  · obtain ⟨t, hpass, htr⟩ := translate_eq s.mbxByte { s with mbxReady := ready, takePending := pending }
    exact ⟨ready, pending, .inr ⟨t, hpass, heq.trans htr⟩⟩

/-- Settles O43. -/
theorem stepsQueueWholeEmissionsAndLaunchInOrder : Obligations.StepsQueueWholeEmissionsAndLaunchInOrder := by
  intro s t hstep
  obtain ⟨hev, rfl⟩ | ⟨e, rest, hev, rfl⟩ := eq_of_step hstep
  · rw [hev]
  · rw [hev]
    cases e with
    | edge d => exact queue_edgeNext d { s with events := rest }
    | tick r => exact queue_tickNext r { s with events := rest }
    | poll =>
      obtain ⟨ready, pending, heq | ⟨t, hpass, heq⟩⟩ := pollNext_passCase { s with events := rest } <;> rw [eventNext, heq]
      · exact .inl rfl
      · exact hpass.queue_eq

/-! ### The markers of a step (R181 to R185) -/

theorem trace_edgeNext (d : Bool) (s : State) : (edgeNext d s).trace = s.trace ∨
    ∃ m, (edgeNext d s).trace = m :: s.trace ∧ s.rxWin.getLsbD 1 = true ∧
      ((d = false ∧ m = .eFrame ((s.rxWin >>> 1) ||| 0x400#11)) ∨ (d = true ∧ s.mbxReady = true ∧ m = .eMbxOverwrite s.mbxByte)) := by
  cases hstart : s.rxWin.getLsbD 1
  · exact .inl (by rw [edgeNext_shift d hstart]; rfl)
  · cases d
    · refine .inr ⟨_, ?_, rfl, .inl ⟨rfl, rfl⟩⟩
      rw [edgeNext_reject hstart, rejectWindow_trace, rxInsert_eq]
      rfl
    · rw [edgeNext_accept hstart, acceptWindow_trace]
      cases hready : s.mbxReady
      · exact .inl rfl
      · exact .inr ⟨_, rfl, rfl, .inr ⟨rfl, rfl, rfl⟩⟩

theorem activeTick_trace (s : State) : (activeTick s).trace = s.trace := by rw [activeTick_eq]

theorem trace_tickNext (r : Bool) (s : State) : (tickNext r s).trace = s.trace ∨
    ∃ m, (tickNext r s).trace = m :: s.trace ∧ s.txCount = 0 ∧ r = true ∧ ∃ v, (queue s).head? = some v ∧ m = .launch v := by
  obtain ⟨_, _, heq⟩ | ⟨h0, hr, hne, heq⟩ | ⟨_, heq⟩ := tickNext_cases r s <;> rw [heq]
  · exact .inl rfl
  · refine .inr ⟨_, rfl, h0, hr, _, ?_, rfl⟩
    rw [queue_pop (t := launched s) hne rfl rfl rfl]
    rfl
  · exact .inl (activeTick_trace s)

/-- A pass records an unknown key or a lost emission, and only on a press. -/
theorem PassCase.trace_eq {key : Key} {s t : State} (h : PassCase key s t) : t.trace = s.trace ∨
    ∃ m, t.trace = m :: s.trace ∧ s.hist1 ≠ pfxRelease ∧
      ((lookup s.params.table.keymap key = none ∧ key ∉ s.params.mods.toList ∧ m = .eUnknownKey key) ∨
        (14 ≤ (queue s).length ∧ ∃ lost, m = .eRbFull lost ∧ queue t = queue s)) := by
  cases h with
  | unknown hpress habsent hkey => exact .inr ⟨_, rfl, hpress, .inl ⟨habsent, hkey, rfl⟩⟩
  | byteLost v hpress hfull =>
    exact .inr ⟨_, rfl, hpress, .inr ⟨Nat.le_of_lt ((full_iff s).mp hfull), _, rfl, rfl⟩⟩
  | pairLost v1 v2 hpress hfull => exact .inr ⟨_, rfl, hpress, .inr ⟨(pairFull_iff s).mp hfull, _, rfl, rfl⟩⟩
  | _ => exact .inl rfl

/-- Settles O60. -/
theorem errorMarkersAreRaisedByTheirCasesOnly : Obligations.ErrorMarkersAreRaisedByTheirCasesOnly := by
  intro s t hstep
  obtain ⟨hev, rfl⟩ | ⟨e, rest, hev, rfl⟩ := eq_of_step hstep
  · exact .inl rfl
  · rw [hev]
    cases e with
    | edge d => exact trace_edgeNext d { s with events := rest }
    | tick r => exact trace_tickNext r { s with events := rest }
    | poll =>
      obtain ⟨ready, pending, heq | ⟨t, hpass, heq⟩⟩ := pollNext_passCase { s with events := rest } <;> rw [eventNext, heq]
      · exact .inl rfl
      · exact hpass.trace_eq

/-! ### The trace is never read (R7) -/

/-- At this state the function only adds markers to the trace, the same whatever the trace holds. -/
def TraceBlind (f : State → State) (s : State) : Prop :=
  ∃ marks, (f s).trace = marks ++ s.trace ∧
    ∀ other, f { s with trace := other } = { f s with trace := marks ++ other }

theorem PassBlind.traceBlind {f : State → State} {s : State} (h : PassBlind f s) : TraceBlind f s := by
  have hparams := h.params_eq
  obtain ⟨marks, htrace, hblind⟩ := h
  refine ⟨marks, htrace, fun other => (hblind s.params other rfl rfl).trans ?_⟩
  rw [withAside, ← hparams]

theorem TraceBlind.of_eq {f g : State → State} {s : State} (hg : TraceBlind g s)
    (heq : ∀ other, f { s with trace := other } = g { s with trace := other }) : TraceBlind f s := by
  obtain ⟨marks, htrace, hblind⟩ := hg
  have hself : f s = g s := heq s.trace
  exact ⟨marks, hself ▸ htrace, fun other => by rw [heq, hblind, hself]⟩

theorem traceBlind_acceptWindow (w : Window) (s : State) : TraceBlind (acceptWindow w) s := by
  cases h : s.mbxReady
  · exact ⟨[], by simp [h], fun _ => by simp [acceptWindow_eq, h]⟩
  · exact ⟨[.eMbxOverwrite s.mbxByte], by simp [h], fun _ => by simp [acceptWindow_eq, h]⟩

theorem traceBlind_mbxPut (v : Byte) (s : State) : TraceBlind (mbxPut v) s := by
  cases h : s.mbxReady
  · exact ⟨[], by simp [h], fun _ => by simp [mbxPut, h]⟩
  · exact ⟨[.eMbxOverwrite s.mbxByte], by simp [h], fun _ => by simp [mbxPut, note, h]⟩

theorem traceBlind_edgeNext (d : Bool) (s : State) : TraceBlind (edgeNext d) s := by
  cases hstart : s.rxWin.getLsbD 1
  · have hkeep : TraceBlind (keepWindow (rxInsert s.rxWin d)) s := ⟨[], rfl, fun _ => rfl⟩
    exact hkeep.of_eq fun _ => edgeNext_shift d hstart
  · cases d
    · have hreject : TraceBlind (rejectWindow (rxInsert s.rxWin false)) s := ⟨[_], rfl, fun _ => rfl⟩
      exact hreject.of_eq fun _ => edgeNext_reject hstart
    · exact (traceBlind_acceptWindow (rxInsert s.rxWin true) s).of_eq fun _ => edgeNext_accept hstart

theorem traceBlind_pollNext (s : State) : TraceBlind pollNext s := by
  have hidle : TraceBlind id s := ⟨[], rfl, fun _ => rfl⟩
  have hfirst : TraceBlind (fun u => { u with mbxReady := false, takePending := true }) s := ⟨[], rfl, fun _ => rfl⟩
  have htake : TraceBlind (fun u => translate s.mbxByte { u with mbxReady := false }) s :=
    (passBlind_translate s.mbxByte { s with mbxReady := false }).traceBlind
  have hsecond : TraceBlind (fun u => translate s.mbxByte { u with takePending := false }) s :=
    (passBlind_translate s.mbxByte { s with takePending := false }).traceBlind
  cases hsplit : s.params.mbxSplitTake
  · cases hready : s.mbxReady
    · exact hidle.of_eq fun other => pollNext_idle (s := { s with trace := other }) hsplit hready
    · exact htake.of_eq fun other => pollNext_take (s := { s with trace := other }) hsplit hready
  · cases hpending : s.takePending
    · cases hready : s.mbxReady
      · exact hidle.of_eq fun other => pollNext_split_idle (s := { s with trace := other }) hsplit hpending hready
      · exact hfirst.of_eq fun other => pollNext_split_first (s := { s with trace := other }) hsplit hpending hready
    · exact hsecond.of_eq fun other => pollNext_split_second (s := { s with trace := other }) hsplit hpending

theorem traceBlind_launched (s : State) : TraceBlind launched s := ⟨[_], rfl, fun _ => rfl⟩

theorem traceBlind_activeTick (s : State) : TraceBlind activeTick s :=
  ⟨[], activeTick_trace s, fun other => by rw [activeTick_eq, activeTick_eq]; rfl⟩

theorem traceBlind_tickNext (r : Bool) (s : State) : TraceBlind (tickNext r) s := by
  have hhold : TraceBlind id s := ⟨[], rfl, fun _ => rfl⟩
  obtain ⟨h0, hwait, _⟩ | ⟨h0, rfl, hne, _⟩ | ⟨h0, _⟩ := tickNext_cases r s
  · exact hhold.of_eq fun other => tickNext_hold (s := { s with trace := other }) h0 hwait
  · exact (traceBlind_launched s).of_eq fun other => tickNext_launch (s := { s with trace := other }) h0 hne
  · exact (traceBlind_activeTick s).of_eq fun other => tickNext_active (s := { s with trace := other }) r h0

theorem traceBlind_pushNoted (v : Byte) (s : State) :
    TraceBlind (fun u => note (.resultBool (rbPush v u).1) (rbPush v u).2) s := by
  by_cases hfull : s.rbIn + 1#4 = s.rbOut
  · have hfail : TraceBlind (note (.resultBool false)) s := ⟨[_], rfl, fun _ => rfl⟩
    exact hfail.of_eq fun other => by rw [rbPush_full (s := { s with trace := other }) hfull]
  · have hwrite : TraceBlind
        (fun u => note (.resultBool true) { u with rbMem := rbWrite s.rbMem s.rbIn v, rbIn := s.rbIn + 1#4 }) s :=
      ⟨[_], rfl, fun _ => rfl⟩
    exact hwrite.of_eq fun other => by rw [rbPush_room (s := { s with trace := other }) hfull]

theorem traceBlind_push2Noted (v1 v2 : Byte) (s : State) :
    TraceBlind (fun u => note (.resultBool (rbPush2 v1 v2 u).1) (rbPush2 v1 v2 u).2) s := by
  by_cases hfull : 14#4 ≤ rbCount s
  · have hfail : TraceBlind (note (.resultBool false)) s := ⟨[_], rfl, fun _ => rfl⟩
    exact hfail.of_eq fun other => by rw [rbPush2_full (s := { s with trace := other }) hfull]
  · have hwrite : TraceBlind (fun u => note (.resultBool true)
        { u with rbMem := rbWrite (rbWrite s.rbMem s.rbIn v1) (s.rbIn + 1#4) v2, rbIn := s.rbIn + 2#4 }) s :=
      ⟨[_], rfl, fun _ => rfl⟩
    exact hwrite.of_eq fun other => by rw [rbPush2_room (s := { s with trace := other }) hfull]

theorem traceBlind_popNoted (s : State) : TraceBlind (fun u => note (.resultByte (rbPop u).1) (rbPop u).2) s := by
  by_cases hempty : s.rbIn = s.rbOut
  · have hnone : TraceBlind (note (.resultByte none)) s := ⟨[_], rfl, fun _ => rfl⟩
    exact hnone.of_eq fun other => by rw [rbPop_empty (s := { s with trace := other }) hempty]
  · have htake : TraceBlind
        (fun u => note (.resultByte (some (rbRead s.rbMem s.rbOut))) { u with rbOut := s.rbOut + 1#4 }) s :=
      ⟨[_], rfl, fun _ => rfl⟩
    exact htake.of_eq fun other => by rw [rbPop_nonempty (s := { s with trace := other }) hempty]

/-- An operation that is a trace-blind function at the state, whatever its trace, meets the statement there. -/
theorem exec_traceBlind {i : Instr} {s t : State} {f : State → State}
    (hexec : ∀ other, exec i { s with trace := other } = .next (f { s with trace := other })) (hf : TraceBlind f s)
    (h : exec i s = .next t) :
    ∃ marks, t.trace = marks ++ s.trace ∧ ∀ other, exec i { s with trace := other } = .next { t with trace := marks ++ other } := by
  obtain ⟨marks, htrace, hblind⟩ := hf
  obtain rfl := Host.Outcome.next.inj ((hexec s.trace).symm.trans h)
  exact ⟨marks, htrace, fun other => (hexec other).trans (congrArg _ (hblind other))⟩

/-- Settles O59: a row that only writes registers adds no marker; each other row is trace-blind by its cases. -/
theorem noOperationReadsTheTrace : Obligations.NoOperationReadsTheTrace := by
  intro i s t h
  cases i with
  | rxAccept p d => exact exec_traceBlind (fun _ => exec_rxAccept p d _) (traceBlind_acceptWindow _ s) h
  | rxReject p d => exact exec_traceBlind (fun _ => exec_rxReject p d _) ⟨[_], rfl, fun _ => rfl⟩ h
  | xlPrsOther esc b =>
    exact exec_traceBlind (f := fun u => historyUpdate b (note (.eUnknownKey (lookupKey esc b)) u))
      (fun _ => exec_xlPrsOther esc b _) ⟨[_], rfl, fun _ => rfl⟩ h
  | xlPrsKey esc b =>
    cases hfound : lookup s.params.table.keymap (lookupKey esc b) with
    | none => simp [exec, execXlPrsKey, hfound] at h
    | some entry =>
      obtain ⟨i, e⟩ := entry
      exact exec_traceBlind (f := fun u => historyUpdate b (emitEntry i e u))
        (fun other => exec_xlPrsKey (s := { s with trace := other }) hfound)
        ((passBlind_emitEntry i e s).comp (passBlind_historyUpdate b _)).traceBlind h
  | xlPrsFkeyAlt esc b =>
    cases hfound : lookup s.params.table.keymap (lookupKey esc b) with
    | none => simp [exec, execXlPrsFkeyAlt, hfound] at h
    | some entry =>
      obtain ⟨i, e⟩ := entry
      cases hrange : inFkeyRange s.params.table i
      · simp [exec, execXlPrsFkeyAlt, hfound, hrange] at h
      · exact exec_traceBlind (f := fun u => historyUpdate b (emitFkey i e u))
          (fun other => exec_xlPrsFkeyAlt (s := { s with trace := other }) hfound hrange)
          ((passBlind_emitFkey i e s).comp (passBlind_historyUpdate b _)).traceBlind h
  | txStart =>
    by_cases hne : s.rbIn = s.rbOut
    · simp [exec, execTxStart, launchByte, rbPop_empty hne] at h
    · exact exec_traceBlind (fun other => exec_txStart (s := { s with trace := other }) hne) (traceBlind_launched s) h
  | mbxPut v => exact exec_traceBlind (fun _ => rfl) (traceBlind_mbxPut v s) h
  | mbxTake =>
    exact exec_traceBlind
      (f := fun u => note (.resultByte (if s.mbxReady then some s.mbxByte else none)) { u with mbxReady := false })
      (fun other => mailboxTakeReturnsAndClears { s with trace := other }) ⟨[_], rfl, fun _ => rfl⟩ h
  | rbPush v => exact exec_traceBlind (fun _ => exec_rbPush v _) (traceBlind_pushNoted v s) h
  | rbPush2 v1 v2 => exact exec_traceBlind (fun _ => exec_rbPush2 v1 v2 _) (traceBlind_push2Noted v1 v2 s) h
  | rbPop => exact exec_traceBlind (fun _ => exec_rbPop _) (traceBlind_popNoted s) h
  | rxEdge d => exact exec_traceBlind (fun _ => exec_rxEdge d _) (traceBlind_edgeNext d s) h
  | xlPoll => exact exec_traceBlind (fun _ => exec_xlPoll_eq _) (traceBlind_pollNext s) h
  | txTick r => exact exec_traceBlind (fun _ => exec_txTick_eq r _) (traceBlind_tickNext r s) h
  | _ =>
    obtain rfl := Host.Outcome.next.inj h
    exact ⟨[], rfl, fun _ => rfl⟩

end Sys2Proof.Machine
end
